-- ==== Sys2Proof/Word.lean ====
section
/-! DEFINITION. The codec's word and the value types the host hands to it (00_scope.md R9, R10;
42_payload_rules.md R140; 30_encoding.md R77). -/

namespace Sys2Proof

/-- Every stream element is one byte, an unsigned value 0..255 (R9, R10). -/
abbrev Byte := BitVec 8

/-- A formatter input of type `Num`: an exact rational, or a value that is not a number (R140, D41). -/
inductive NumVal where
  | rational (q : Rat)
  | notNum
deriving DecidableEq, Repr

/-- A formatter input of type `Elem`: an integer, or any value that is not one (R140, D28). -/
inductive Elem where
  | int (n : Int)
  | notInt
deriving DecidableEq, Repr

/-- The two directions a frame can have (R70, R77). -/
inductive Direction where
  | hostToDevice
  | deviceToHost
deriving DecidableEq, Repr

end Sys2Proof
end

