-- ==== Sys2Proof/Machine/Crc8.lean ====
section
/-! DEFINITION. The CRC-8 function of 40_crc.md §1. -/

namespace Sys2Proof.Machine

/-- One round: shift left modulo 256, then XOR the polynomial 0xD5 when bit 7 was 1 (R101). -/
def crcRound (r : Byte) : Byte := if r.getLsbD 7 then (r <<< 1) ^^^ 0xD5#8 else r <<< 1

/-- `n` rounds. -/
def crcRounds : Nat → Byte → Byte
  | 0, r => r
  | n + 1, r => crcRounds n (crcRound r)

/-- `crc_step(c, b)`: XOR the byte in, then eight rounds (R101). -/
def crcStep (c b : Byte) : Byte := crcRounds 8 (c ^^^ b)

/-- `crc8(l)`: the left fold of `crc_step` from 0 (R102). -/
def crc8 (l : List Byte) : Byte := l.foldl crcStep 0

end Sys2Proof.Machine
end

