-- ==== Sys2Proof/Config.lean ====
section
/-! DEFINITION. The instance parameters of 00_scope.md R8. Two of them are OPEN in the spec
(`VERIFY_CRC`, `PULSE_ENCODING`): this instance's values are constants without a body, so nothing can be
proved from them (assumption log 3). -/

namespace Sys2Proof

/-- The values of the parameter `PULSE_ENCODING` (R8, R143). -/
inductive PulseEncoding where
  | u8
  | u16be
  | u16le
deriving DecidableEq, Repr, Inhabited

/-- The parameters of R8, fixed per instance. -/
structure Params where
  /-- `VERIFY_CRC`: reject a frame whose checksum byte is wrong (R189, D16). -/
  verifyCrc : Bool
  /-- `RESCAN_ON_ABORT`: look at the byte that caused an abort once more (R194, D12). -/
  rescanOnAbort : Bool
  /-- `RX_MAX_LEN`: the largest inbound length accepted, 1..65535 (R186, D14). -/
  rxMaxLen : Nat
  /-- `PULSE_ENCODING`: how a servo pulse value is packed (R143, D25). -/
  pulseEncoding : PulseEncoding
deriving DecidableEq, Repr

/-- The range R8 gives the one numeric parameter. -/
abbrev Params.wf (P : Params) : Prop := 1 ≤ P.rxMaxLen ∧ P.rxMaxLen ≤ 65535

/-- `VERIFY_CRC` of this instance: OPEN (R8, D16), a free value. -/
opaque Config.verifyCrc : Bool

/-- `PULSE_ENCODING` of this instance: OPEN (R8, D25), a free value. -/
opaque Config.pulseEncoding : PulseEncoding

/-- The parameters of this instance: the two decided ones as R8 gives them, the two open ones free. -/
def Config.params : Params where
  verifyCrc := Config.verifyCrc
  rescanOnAbort := true
  rxMaxLen := 65535
  pulseEncoding := Config.pulseEncoding

end Sys2Proof
end

