-- ==== Sys2Proof/Syntax.lean ====
section
/-! DEFINITION. The operations of the codec, one constructor per row of spec/opcode_table.json: the eight
port operations (30_encoding.md R81) with their `arg` byte kept whole, then the sixteen frame opcodes
(R75): the fifteen formatter commands with the typed operands of 42_payload_rules.md, in the argument
order of R85, and SEND_THERMAL_READING, which has no formatter command (R161; assumption log 7). -/

namespace Sys2Proof

/-- One operation of the codec (R12). -/
inductive Instr where
  /-- RESET, `arg` ignored (R220). -/
  | reset (arg : Byte)
  /-- SET_DRY, bit 0 of `arg` is the new DRY (R221). -/
  | setDry (arg : Byte)
  /-- CRC_CLEAR, `arg` ignored (R104). -/
  | crcClear (arg : Byte)
  /-- CRC_FEED of a data byte (R105). -/
  | crcFeed (d : Byte)
  /-- CRC_READ, `arg` ignored (R106). -/
  | crcRead (arg : Byte)
  /-- ENCODE of a frame opcode and a payload (R121). -/
  | encode (op : Byte) (payload : List Byte)
  /-- RX_BYTE of a received byte (R181). -/
  | rxByte (b : Byte)
  /-- READ_STATUS, `arg` ignored (R222). -/
  | readStatus (arg : Byte)
  /-- Frame opcode 0x00 (R146). -/
  | setServoOpenClose (servo : Int) (action : String)
  /-- Frame opcode 0x01 (R147). -/
  | setServoMin (servo : Int) (minPulse : NumVal)
  /-- Frame opcode 0x02 (R148). -/
  | setServoMax (servo : Int) (maxPulse : NumVal)
  /-- Frame opcode 0x03 (R149). -/
  | setServoPct (servo : Int) (percent : NumVal)
  /-- Frame opcode 0x04 (R150). -/
  | setBaseColor (wrgb : List Elem)
  /-- Frame opcode 0x05 (R151); the duration is an optional binary32 pattern. -/
  | setTempColor (wrgb : List Elem) (time : Option (BitVec 32))
  /-- Frame opcode 0x06 (R152). -/
  | setPixelCycle (targetPixel delayMs : Int)
  /-- Frame opcode 0x07 (R153). -/
  | setTriggerSwitch (whichSwitch howLong : Int)
  /-- Frame opcode 0x08 (R154). -/
  | setSwitchOn (whichSwitch : Int)
  /-- Frame opcode 0x09 (R155). -/
  | setSwitchOff (whichSwitch : Int)
  /-- Frame opcode 0x0A (R156). -/
  | setLaserOn
  /-- Frame opcode 0x0B (R157). -/
  | setLaserOff
  /-- Frame opcode 0x0C (R158). -/
  | requestThermalReading
  /-- Frame opcode 0x0D (R159). -/
  | resetVrcPeriph
  /-- Frame opcode 0x0E (R160). -/
  | checkServoController
  /-- Frame opcode 0x0F (R161, R191): a frame of this opcode, sent by the host with a raw ENCODE or
  arriving from the device. -/
  | sendThermalReading (dir : Direction) (payload : List Byte)
deriving DecidableEq, Repr

end Sys2Proof
end

