-- ==== Sys2Proof/WellFormed.lean ====
section
/-! DEFINITION. Which terms of `Instr` are operations of the codec. The only limits the spec puts on
operands are on payload lengths: ENCODE's payload is a list of 0..65535 bytes (30_encoding.md R80), and a
frame that exists on the wire carries at most 65534 payload bytes (R73). Typed formatter operands are
unlimited (42_payload_rules.md R140). -/

namespace Sys2Proof

/-- An operation the host can issue. -/
def Instr.WellFormed : Instr → Bool
  | .encode _ p => decide (p.length ≤ 65535)
  | .sendThermalReading .hostToDevice p => decide (p.length ≤ 65535)
  | .sendThermalReading .deviceToHost p => decide (p.length ≤ 65534)
  | .reset _ | .setDry _ | .crcClear _ | .crcFeed _ | .crcRead _ | .rxByte _ | .readStatus _ => true
  | .setServoOpenClose _ _ | .setServoMin _ _ | .setServoMax _ _ | .setServoPct _ _ => true
  | .setBaseColor _ | .setTempColor _ _ | .setPixelCycle _ _ | .setTriggerSwitch _ _ => true
  | .setSwitchOn _ | .setSwitchOff _ | .setLaserOn | .setLaserOff => true
  | .requestThermalReading | .resetVrcPeriph | .checkServoController => true

end Sys2Proof
end

