-- ==== Sys2Proof/Decode.lean ====
section
/-! DEFINITION. What the host hands to the codec, the decoder that reads an operation from it, and the
encoder that writes one.

A port operation arrives as an 11-bit command word and, for ENCODE only, a payload (30_encoding.md R80,
R81). A formatter command has no encoding of its own (R84): it arrives as its frame opcode (R75) and its
typed arguments in the order of R85 (assumption log 6). -/

namespace Sys2Proof

/-- One typed argument of a formatter command (42_payload_rules.md R140), or an operand of a frame of
opcode 0x0F. -/
inductive Arg where
  | int (n : Int)
  | num (x : NumVal)
  | str (s : String)
  | elems (l : List Elem)
  | bits32 (t : BitVec 32)
  | dir (d : Direction)
  | bytes (p : List Byte)
deriving DecidableEq, Repr

/-- What the host hands over: a command word with its payload (R80), or a frame opcode with typed
arguments (R84, R85). -/
inductive Request where
  | port (word : BitVec 11) (payload : List Byte)
  | command (code : Byte) (args : List Arg)
deriving DecidableEq, Repr

/-- Why a request is no operation of the codec. -/
inductive Reject where
  /-- A payload with an operation other than ENCODE: R80 delivers one "for ENCODE only". -/
  | unexpectedPayload
  /-- A payload longer than R80 (ENCODE: 65535 bytes) or R73 (an inbound frame: 65534) has. -/
  | payloadTooLong
  /-- A frame opcode 0x10..0xFF names no command: R76 gives it "no other meaning". -/
  | noSuchCommand (code : Byte)
  /-- Arguments whose number or types are not those of R85: the Router's failure, before the codec (R140). -/
  | badArguments (code : Byte)
deriving DecidableEq, Repr

/-- `op[2:0]`, bits 10:8 of the command word (R80). -/
def opSelect (w : BitVec 11) : BitVec 3 := w.extractLsb' 8 3

/-- `arg[7:0]`, bits 7:0 of the command word (R80). -/
def argByte (w : BitVec 11) : Byte := w.extractLsb' 0 8

/-- The command word of an op-select code and an argument (R80). -/
def commandWord (op : BitVec 3) (arg : Byte) : BitVec 11 := op ++ arg

/-- An operation that takes no payload. -/
def withoutPayload (p : List Byte) (i : Instr) : Except Reject Instr :=
  if p.isEmpty then .ok i else .error .unexpectedPayload

/-- The table of op-select codes (R81). All eight are used, so code 7 may stand last without a check. -/
def decodePort (w : BitVec 11) (p : List Byte) : Except Reject Instr :=
  match (opSelect w).toNat with
  | 0 => withoutPayload p (.reset (argByte w))
  | 1 => withoutPayload p (.setDry (argByte w))
  | 2 => withoutPayload p (.crcClear (argByte w))
  | 3 => withoutPayload p (.crcFeed (argByte w))
  | 4 => withoutPayload p (.crcRead (argByte w))
  | 5 => if p.length ≤ 65535 then .ok (.encode (argByte w) p) else .error .payloadTooLong
  | 6 => withoutPayload p (.rxByte (argByte w))
  | _ => withoutPayload p (.readStatus (argByte w))

/-- The table of frame opcodes (R75), each with the arguments R85 gives its command. -/
def decodeCommand (code : Byte) (args : List Arg) : Except Reject Instr :=
  match code.toNat, args with
  | 0x00, [.int servo, .str action] => .ok (.setServoOpenClose servo action)
  | 0x01, [.int servo, .num v] => .ok (.setServoMin servo v)
  | 0x02, [.int servo, .num v] => .ok (.setServoMax servo v)
  | 0x03, [.int servo, .num v] => .ok (.setServoPct servo v)
  | 0x04, [.elems wrgb] => .ok (.setBaseColor wrgb)
  | 0x05, [.elems wrgb] => .ok (.setTempColor wrgb none)
  | 0x05, [.elems wrgb, .bits32 t] => .ok (.setTempColor wrgb (some t))
  | 0x06, [.int target, .int delay] => .ok (.setPixelCycle target delay)
  | 0x07, [.int which, .int long] => .ok (.setTriggerSwitch which long)
  | 0x08, [.int which] => .ok (.setSwitchOn which)
  | 0x09, [.int which] => .ok (.setSwitchOff which)
  | 0x0A, [] => .ok .setLaserOn
  | 0x0B, [] => .ok .setLaserOff
  | 0x0C, [] => .ok .requestThermalReading
  | 0x0D, [] => .ok .resetVrcPeriph
  | 0x0E, [] => .ok .checkServoController
  | 0x0F, [.dir d, .bytes p] =>
    if (Instr.sendThermalReading d p).WellFormed then .ok (.sendThermalReading d p) else .error .payloadTooLong
  | n, _ => if n < 16 then .error (.badArguments code) else .error (.noSuchCommand code)

/-- The decoder: total on every request, rejecting by name. -/
def decode : Request → Except Reject Instr
  | .port w p => decodePort w p
  | .command code args => decodeCommand code args

/-- The encoder: the request that stands for an operation (R81 for the words, R75 and R85 for the
commands). -/
def encode : Instr → Request
  | .reset arg => .port (commandWord 0 arg) []
  | .setDry arg => .port (commandWord 1 arg) []
  | .crcClear arg => .port (commandWord 2 arg) []
  | .crcFeed d => .port (commandWord 3 d) []
  | .crcRead arg => .port (commandWord 4 arg) []
  | .encode op p => .port (commandWord 5 op) p
  | .rxByte b => .port (commandWord 6 b) []
  | .readStatus arg => .port (commandWord 7 arg) []
  | .setServoOpenClose servo action => .command 0x00 [.int servo, .str action]
  | .setServoMin servo v => .command 0x01 [.int servo, .num v]
  | .setServoMax servo v => .command 0x02 [.int servo, .num v]
  | .setServoPct servo v => .command 0x03 [.int servo, .num v]
  | .setBaseColor wrgb => .command 0x04 [.elems wrgb]
  | .setTempColor wrgb none => .command 0x05 [.elems wrgb]
  | .setTempColor wrgb (some t) => .command 0x05 [.elems wrgb, .bits32 t]
  | .setPixelCycle target delay => .command 0x06 [.int target, .int delay]
  | .setTriggerSwitch which long => .command 0x07 [.int which, .int long]
  | .setSwitchOn which => .command 0x08 [.int which]
  | .setSwitchOff which => .command 0x09 [.int which]
  | .setLaserOn => .command 0x0A []
  | .setLaserOff => .command 0x0B []
  | .requestThermalReading => .command 0x0C []
  | .resetVrcPeriph => .command 0x0D []
  | .checkServoController => .command 0x0E []
  | .sendThermalReading d p => .command 0x0F [.dir d, .bytes p]

/-- The all-zero operands of a frame opcode, for a table word that carries none: zero, the empty string,
the empty list, no duration, and the direction R75 gives opcode 0x0F (assumption log 8). -/
def zeroArgs (code : Nat) : List Arg :=
  match code with
  | 0x00 => [.int 0, .str ""]
  | 0x01 | 0x02 | 0x03 => [.int 0, .num (.rational 0)]
  | 0x04 | 0x05 => [.elems []]
  | 0x06 | 0x07 => [.int 0, .int 0]
  | 0x08 | 0x09 => [.int 0]
  | 0x0F => [.dir .deviceToHost, .bytes []]
  | _ => []

/-- The request a row of the opcode table stands for: 8 bits are a frame opcode, 9 to 16 bits an 11-bit
command word in whole bytes, whose bits above 10 are no part of it and must be zero (assumption log 8). -/
def tableRequest (nbits w : Nat) : Option Request :=
  if nbits = 8 then
    if w < 256 then some (.command (BitVec.ofNat 8 w) (zeroArgs w)) else none
  else if 8 < nbits ∧ nbits ≤ 16 then
    if w < 2048 then some (.port (BitVec.ofNat 11 w) []) else none
  else none

/-- The operation the decoder reads from a word of the opcode table. -/
def decodeTableWord (nbits w : Nat) : Option Instr :=
  match tableRequest nbits w with
  | none => none
  | some r =>
    match decode r with
    | .ok i => some i
    | .error _ => none

end Sys2Proof
end

