-- ==== Sys2Proof/Machine/State.lean ====
section
/-! DEFINITION. The codec's state: the record of 10_state.md R20 (the seven elements of the partial frame of
R35 stand together in `Decoder`), and three fields of the model's own that the spec does not count as state:
the requests not yet taken (assumption log 4), the read results handed back (assumption log 5) and the
instance's parameters (assumption log 3). The codec has no registers, no program counter and no memory
(R21, R22, R50). -/

namespace Sys2Proof.Machine

/-- The decoder's states (R26); their codes are `DState.code`. -/
inductive DState where
  | seekMark
  | seekP
  | seekD
  | lenHi
  | lenLo
  | bodyOp
  | payload
  | rxCrc
deriving DecidableEq, Repr

/-- The partial frame (R27, R28, R29, R35). -/
structure Decoder where
  /-- `dstate` -/
  dstate : DState
  /-- `dhi`, the length field's high byte -/
  dhi : Byte
  /-- `dlen`, the length field -/
  dlen : BitVec 16
  /-- `dcnt`, payload bytes still expected -/
  dcnt : BitVec 16
  /-- `dop`, the opcode of the frame being read -/
  dop : Byte
  /-- `dbuf`, the payload collected so far, in arrival order -/
  dbuf : List Byte
  /-- `dcrc`, the running CRC of the frame being read -/
  dcrc : Byte
deriving DecidableEq, Repr

/-- The codes of an `RxDiscard` record (60_exceptions.md R242); their numbers are `RxCode.code`. -/
inductive RxCode where
  | badMark
  | badDir
  | badLen
  | lenTooLong
  | badOpcode
  | badCrc
  | badReadingLen
deriving DecidableEq, Repr

/-- The codes of a `TxError` record (R242); their numbers are `TxCode.code`. -/
inductive TxCode where
  | badOpcode
  | lenOverflow
deriving DecidableEq, Repr

/-- The formatter commands' names (30_encoding.md R85). -/
inductive CmdName where
  | setServoOpenClose
  | setServoMin
  | setServoMax
  | setServoPct
  | setBaseColor
  | setTempColor
  | setPixelCycle
  | setTriggerSwitch
  | setSwitchOn
  | setSwitchOff
  | setLaserOn
  | setLaserOff
  | requestThermalReading
  | resetVrcPeriph
  | checkServoController
deriving DecidableEq, Repr

/-- The reason tags of `CmdDropped` (R242). -/
inductive DropReason where
  | argRange
  | badAction
  | notNumeric
  | outOfRange
  | pulseExceedsByte
deriving DecidableEq, Repr

/-- A thermal reading: 8 rows of 8 bytes (R34). -/
abbrev Reading := Vector (Vector Byte 8) 8

/-- The records of the event stream (R33). -/
inductive Event where
  | rxFrame (op : Byte) (payload : List Byte) (crcOk : Bool)
  | rxReading (m : Reading)
  | rxDiscard (code : RxCode) (byte : Byte)
  | txDryFrame (bytes : List Byte)
  | txError (code : TxCode) (op : Byte) (n : Nat)
  | cmdDropped (cmd : CmdName) (reason : DropReason)
deriving DecidableEq, Repr

/-- The machine. -/
structure State where
  /-- `was_reset` (R30) -/
  wasReset : Bool
  /-- `crc`, the host-visible CRC register (R20) -/
  crc : Byte
  /-- `ctrl_dry`, CTRL.DRY (R24) -/
  ctrlDry : Bool
  /-- the partial frame (R35) -/
  dec : Decoder
  /-- `tx`, every byte handed to the transport (R32) -/
  tx : List Byte
  /-- `events`, every record emitted (R33) -/
  events : List Event
  /-- the model's own: every result returned to the host by `Result` (R11), oldest first -/
  results : List Byte
  /-- the model's own: the requests the host has issued and the codec has not yet taken, oldest first -/
  port : List Request
  /-- the model's own place for the instance's parameters (R8), which no operation writes -/
  params : Params
deriving DecidableEq, Repr

/-- The decoder after `Clear()` and after RESET (R37, R194). -/
def Decoder.idle : Decoder where
  dstate := .seekMark
  dhi := 0
  dlen := 0
  dcnt := 0
  dop := 0
  dbuf := []
  dcrc := 0

/-- The machine right after its first RESET (R37): the streams are empty because power-on leaves them so
(R38) and RESET does not touch them (assumption log 1). No request is pending. -/
def State.reset : State where
  wasReset := true
  crc := 0
  ctrlDry := false
  dec := Decoder.idle
  tx := []
  events := []
  results := []
  port := []
  params := Config.params

/-- A state the machine can have at power-on, before the first RESET (R38): every other element is
unspecified, so any value will do (assumption log 2). -/
abbrev State.IsPowerOn (s : State) : Prop :=
  s.wasReset = false ∧ s.tx = [] ∧ s.events = []

/-- The reasons the machine stops with a fault. -/
inductive Fault where
  /-- `NotReset` (60_exceptions.md R240): raised by every operation other than RESET, port operation or
  formatter command, before the first RESET. Safe: the spec itself says the run is faulted. -/
  | notReset
deriving DecidableEq, Repr

/-- The reasons a step has no meaning. -/
inductive Refusal where
  /-- Raised by `exec` for an operation without a meaning in this model; no arm raises it now. Safe. -/
  | notModelled (mnemonic : String)
  /-- Raised by `step` when the pending request is no operation of the codec (`Reject` says why). Safe: no
  rule gives such a request an effect. -/
  | badRequest (why : Reject)
  /-- Raised by `exec` of an ill-formed SEND_THERMAL_READING, an inbound frame longer than the length field
  can say (30_encoding.md R73). Safe: no such frame exists, and the decoder never yields the term. -/
  | noSuchFrame
deriving DecidableEq, Repr

end Sys2Proof.Machine
end

