-- ==== Sys2Proof/Machine/Flags.lean ====
section
/-! DEFINITION. The codec's flags (10_state.md R23: `ctrl_dry` and `crc_ok`), the STATUS register (R25) and
the numeric codes the spec gives the decoder states (R26) and the records (60_exceptions.md R242). -/

namespace Sys2Proof.Machine

/-- The new DRY that SET_DRY's `arg` carries: bit 0 (44_control.md R221). -/
def dryBit (arg : Byte) : Bool := arg.getLsbD 0

/-- `crc_ok`: whether the checksum byte equals the running CRC (43_decoder.md R189). -/
def crcOk (d : Decoder) (b : Byte) : Bool := b == d.dcrc

/-- The 3-bit code of a decoder state (R26). -/
def DState.code : DState → BitVec 3
  | .seekMark => 0
  | .seekP => 1
  | .seekD => 2
  | .lenHi => 3
  | .lenLo => 4
  | .bodyOp => 5
  | .payload => 6
  | .rxCrc => 7

/-- A one-bit STATUS field at bit `n`. -/
def statusBit (v : Bool) (n : Nat) : Byte := if v then 1#8 <<< n else 0#8

/-- STATUS (R25, R222): STATE in 2:0, DRY in 3, VERIFY in 4, RESCAN in 5, bits 7:6 zero. -/
def statusByte (s : State) : Byte :=
  (DState.code s.dec.dstate).setWidth 8 ||| statusBit s.ctrlDry 3 ||| statusBit s.params.verifyCrc 4
    ||| statusBit s.params.rescanOnAbort 5

/-- The number of an `RxDiscard` code (R242). -/
def RxCode.code : RxCode → Byte
  | .badMark => 0x01
  | .badDir => 0x02
  | .badLen => 0x03
  | .lenTooLong => 0x04
  | .badOpcode => 0x05
  | .badCrc => 0x06
  | .badReadingLen => 0x07

/-- The number of a `TxError` code (R242). -/
def TxCode.code : TxCode → Byte
  | .badOpcode => 0x10
  | .lenOverflow => 0x11

/-- The code of a record: R242 for the error records, none for the results of R243. -/
def Event.code : Event → Option Byte
  | .rxDiscard c _ => some c.code
  | .txError c _ _ => some c.code
  | .cmdDropped _ _ => some 0x20
  | .rxFrame _ _ _ => none
  | .rxReading _ => none
  | .txDryFrame _ => none

end Sys2Proof.Machine
end

