-- ==== Sys2Proof/Machine/Ops.lean ====
section
/-! DEFINITION. The operations the meanings share: the streams (10_state.md R32, R33), the NotReset check
(60_exceptions.md R240), the frame builder (41_encoder.md R120), ENCODE's effect (R121) and the decoder's
step (43_decoder.md R181 to R194).

The codec has no trap entry and no trap return (60_exceptions.md R246, R247): its one fault is `portOp`'s,
and the nearest thing to an exception is the decoder's `abort`, whose way back is the re-examination of the
byte in SEEK_MARK. -/

namespace Sys2Proof.Machine

/-- What a step of this machine answers. -/
abbrev Result := Host.Outcome State Fault Refusal

/-- `TxWrite` of each byte of `bs`, first to last (R11, R52). -/
def State.txWrite (s : State) (bs : List Byte) : State := { s with tx := s.tx ++ bs }

/-- `Emit` of each record of `es`, in order (R11, R33). -/
def State.emit (s : State) (es : List Event) : State := { s with events := s.events ++ es }

/-- `Result(v)`: the value is handed back to the host (R11; assumption log 5). -/
def State.putResult (s : State) (v : Byte) : State := { s with results := s.results ++ [v] }

/-- A write to the CRC register. -/
def State.setCrc (s : State) (c : Byte) : State := { s with crc := c }

/-- A write to CTRL.DRY (R24). -/
def State.setDry (s : State) (d : Bool) : State := { s with ctrlDry := d }

/-- A write to the decoder's latches (R27 to R29). -/
def State.setDec (s : State) (d : Decoder) : State := { s with dec := d }

/-- RESET's effect: every element of R37, the two streams left alone (44_control.md R220). -/
def State.doReset (s : State) : State :=
  { s with wasReset := true, crc := 0, ctrlDry := false, dec := Decoder.idle }

/-- An operation other than RESET, a port operation or a formatter command (00_scope.md R12): NotReset before
the first RESET, else its effect (R240, 70_reset_and_hazards.md R272; assumption log 9). -/
def portOp (f : State → State) (s : State) : Result :=
  if s.wasReset then .next (f s) else .fault .notReset

/-- Bits 15:8. -/
def hiByte (v : BitVec 16) : Byte := v.extractLsb' 8 8

/-- Bits 7:0. -/
def loByte (v : BitVec 16) : Byte := v.extractLsb' 0 8

/-- `hi * 256 + lo` (20_memory.md R53): the high byte above the low byte. -/
def joinBytes (hi lo : Byte) : BitVec 16 := hi ++ lo

/-- The frame's bytes before the checksum: the 3-byte header, the big-endian length `1 + len(p)`, the
opcode and the payload (R70, R120). -/
def frameBody (dir op : Byte) (p : List Byte) : List Byte :=
  let L : BitVec 16 := BitVec.ofNat 16 (1 + p.length)
  [0x24, 0x50, dir, hiByte L, loByte L, op] ++ p

/-- `build_frame(dir, op, p)` (R120). -/
def buildFrame (dir op : Byte) (p : List Byte) : List Byte :=
  frameBody dir op p ++ [crc8 (frameBody dir op p)]

/-- ENCODE's effect on a codec that has been reset (R121): the opcode check, the length check, then the
frame, logged in dry mode (R122) and sent otherwise. -/
def encodeEffect (op : Byte) (p : List Byte) (s : State) : State :=
  if 0x0F < op.toNat then s.emit [.txError .badOpcode op p.length]
  else if 65534 < p.length then s.emit [.txError .lenOverflow op p.length]
  else if s.ctrlDry then s.emit [.txDryFrame (buildFrame 0x3C op p)]
  else s.txWrite (buildFrame 0x3C op p)

/-- `matrix(p)`: `m[r][c] = p[8*r + c]` (R34, R191). -/
def matrix (p : List Byte) : Reading :=
  Vector.ofFn fun r => Vector.ofFn fun c => p.getD (8 * r.val + c.val) 0

/-- The SEEK_MARK arm (R182). -/
def seekMarkArm (d : Decoder) (b : Byte) : Decoder :=
  if b = 0x24 then { d with dcrc := crcStep 0 b, dstate := .seekP } else d

/-- `Abort(code, b)` (R194): one `RxDiscard`, the decoder cleared, and the byte looked at once more in
SEEK_MARK when `RESCAN_ON_ABORT`. -/
def abort (P : Params) (code : RxCode) (b : Byte) : Decoder × List Event :=
  (if P.rescanOnAbort then seekMarkArm Decoder.idle b else Decoder.idle, [.rxDiscard code b])

/-- The records of an accepted frame (R190): `RxFrame`, then for SEND_THERMAL_READING the reading of R191
or the discard of R193. -/
def acceptRecords (d : Decoder) (ok : Bool) (b : Byte) : List Event :=
  .rxFrame d.dop d.dbuf ok ::
    (if d.dop = 0x0F then
      if d.dbuf.length = 64 then [.rxReading (matrix d.dbuf)] else [.rxDiscard .badReadingLen b]
    else [])

/-- The decoder's step on one byte: the next decoder state and the records emitted (R181 to R190). -/
def decoderStep (P : Params) (d : Decoder) (b : Byte) : Decoder × List Event :=
  match d.dstate with
  | .seekMark => (seekMarkArm d b, [])
  | .seekP =>
    if b = 0x50 then ({ d with dcrc := crcStep d.dcrc b, dstate := .seekD }, []) else abort P .badMark b
  | .seekD =>
    if b = 0x3E then ({ d with dcrc := crcStep d.dcrc b, dstate := .lenHi }, []) else abort P .badDir b
  | .lenHi => ({ d with dhi := b, dcrc := crcStep d.dcrc b, dstate := .lenLo }, [])
  | .lenLo =>
    let L := joinBytes d.dhi b
    if L = 0 then abort P .badLen b
    else if P.rxMaxLen < L.toNat then abort P .lenTooLong b
    else ({ d with dlen := L, dcrc := crcStep d.dcrc b, dstate := .bodyOp }, [])
  | .bodyOp =>
    if 0x0F < b.toNat then abort P .badOpcode b
    else
      ({ d with
          dop := b, dcrc := crcStep d.dcrc b, dbuf := [], dcnt := d.dlen - 1
          dstate := if d.dlen - 1 = 0 then .rxCrc else .payload }, [])
  | .payload =>
    ({ d with
        dbuf := d.dbuf ++ [b], dcrc := crcStep d.dcrc b, dcnt := d.dcnt - 1
        dstate := if d.dcnt - 1 = 0 then .rxCrc else .payload }, [])
  | .rxCrc =>
    if P.verifyCrc && !crcOk d b then abort P .badCrc b
    else (Decoder.idle, acceptRecords d (crcOk d b) b)

/-- RX_BYTE's effect on a codec that has been reset (R181). -/
def rxEffect (b : Byte) (s : State) : State :=
  (s.setDec (decoderStep s.params s.dec b).1).emit (decoderStep s.params s.dec b).2

/-- The effect of the RX_BYTEs of a list of bytes, in order (R196). -/
def rxAll (bs : List Byte) (s : State) : State := bs.foldl (fun t b => rxEffect b t) s

/-- A formatter command's two outcomes on a codec that has been reset (42_payload_rules.md R141): one ENCODE of
its opcode with the payload its rule gives, or one `CmdDropped` record and no ENCODE. -/
def commandEffect (cmd : CmdName) (op : Byte) (payload : Except DropReason (List Byte)) (s : State) : State :=
  match payload with
  | .ok p => encodeEffect op p s
  | .error r => s.emit [.cmdDropped cmd r]

/-- A formatter command: NotReset before the first RESET, whichever its outcome would be (assumption log 9),
else its effect. -/
def issue (cmd : CmdName) (op : Byte) (payload : Except DropReason (List Byte)) (s : State) : Result :=
  portOp (commandEffect cmd op payload) s

end Sys2Proof.Machine
end

