-- ==== Sys2Proof/Machine/Control.lean ====
section
/-! DEFINITION. The control operations (44_control.md). -/

namespace Sys2Proof.Machine

/-- RESET (R220): allowed at any time. -/
def execReset (_arg : Byte) (s : State) : Result := .next s.doReset

/-- SET_DRY (R221). -/
def execSetDry (arg : Byte) (s : State) : Result := portOp (fun t => t.setDry (dryBit arg)) s

/-- READ_STATUS (R222). -/
def execReadStatus (_arg : Byte) (s : State) : Result := portOp (fun t => t.putResult (statusByte t)) s

end Sys2Proof.Machine
end

