-- ==== Sys2Proof/Machine/CrcPort.lean ====
section
/-! DEFINITION. The CRC generator's port operations (40_crc.md §2). -/

namespace Sys2Proof.Machine

/-- CRC_CLEAR (R104). -/
def execCrcClear (_arg : Byte) (s : State) : Result := portOp (fun t => t.setCrc 0) s

/-- CRC_FEED (R105). -/
def execCrcFeed (d : Byte) (s : State) : Result := portOp (fun t => t.setCrc (crcStep t.crc d)) s

/-- CRC_READ (R106). -/
def execCrcRead (_arg : Byte) (s : State) : Result := portOp (fun t => t.putResult t.crc) s

end Sys2Proof.Machine
end

