-- ==== Sys2Proof/Machine/Operands.lean ====
section
/-! DEFINITION. The operand forms of the formatter commands (42_payload_rules.md §1) and the payload each
command's rule builds from them (§2). A payload is the bytes, or the reason the command is dropped; the
order of the checks is the order of the rule's pseudocode (R141). -/

namespace Sys2Proof.Machine

/-- The bytes of a payload, or why there is none. -/
abbrev Payload := Except DropReason (List Byte)

/-- `byte_arg(x)` (R142). -/
def byteArg (x : Int) : Except DropReason Byte :=
  if 0 ≤ x ∧ x ≤ 255 then .ok (BitVec.ofInt 8 x) else .error .argRange

/-- `trunc(v)`: toward zero (R143). -/
def trunc (v : Rat) : Int := v.num.tdiv v.den

/-- A number strictly between 0 and `bound`; the not-a-number check comes first (R147, R149). -/
def rangeArg (bound : Rat) (x : NumVal) : Except DropReason Rat :=
  match x with
  | .notNum => .error .notNumeric
  | .rational v => if 0 < v ∧ v < bound then .ok v else .error .outOfRange

/-- `pulse_bytes(v)` under a `PULSE_ENCODING` (R143). -/
def pulseBytes (e : PulseEncoding) (v : Rat) : Payload :=
  let n : BitVec 16 := BitVec.ofInt 16 (trunc v)
  match e with
  | .u8 => if 255 < trunc v then .error .pulseExceedsByte else .ok [n.extractLsb' 0 8]
  | .u16be => .ok [n.extractLsb' 8 8, n.extractLsb' 0 8]
  | .u16le => .ok [n.extractLsb' 0 8, n.extractLsb' 8 8]

/-- An element of a colour array as a byte, if it is an integer in 0..255 (R144). -/
def colorElem : Elem → Option Byte
  | .int n => if 0 ≤ n ∧ n ≤ 255 then some (BitVec.ofInt 8 n) else none
  | .notInt => none

/-- `color4(a)`: four good elements, or four zeros (R144). -/
def color4 (a : List Elem) : List Byte :=
  match a.map colorElem with
  | [some w, some r, some g, some b] => [w, r, g, b]
  | _ => [0x00, 0x00, 0x00, 0x00]

/-- `duration_bytes(t)`: little-endian, 0x3F000000 when absent (R145, 20_memory.md R54). -/
def durationBytes (t : Option (BitVec 32)) : List Byte :=
  let u := t.getD 0x3F000000#32
  [u.extractLsb' 0 8, u.extractLsb' 8 8, u.extractLsb' 16 8, u.extractLsb' 24 8]

/-- `set_servo_open_close` (R146): "open" is 150, "close" is 100. -/
def servoOpenClosePayload (servo : Int) (action : String) : Payload := do
  let s ← byteArg servo
  if action = "open" then .ok [s, 150]
  else if action = "close" then .ok [s, 100]
  else .error .badAction

/-- `set_servo_min` and `set_servo_max` (R147, R148). -/
def servoPulsePayload (e : PulseEncoding) (servo : Int) (pulse : NumVal) : Payload := do
  let s ← byteArg servo
  let v ← rangeArg 1000 pulse
  let bs ← pulseBytes e v
  .ok (s :: bs)

/-- `set_servo_pct` (R149). -/
def servoPctPayload (servo : Int) (percent : NumVal) : Payload := do
  let s ← byteArg servo
  let v ← rangeArg 100 percent
  .ok [s, BitVec.ofInt 8 (trunc v)]

/-- The two-argument commands, packed in reversed order (R152, R153). -/
def reversedPairPayload (first second : Int) : Payload := do
  let a ← byteArg first
  let b ← byteArg second
  .ok [b, a]

/-- The single-index commands (R154, R155). -/
def indexPayload (x : Int) : Payload := do
  let a ← byteArg x
  .ok [a]

end Sys2Proof.Machine
end

