-- ==== Sys2Proof/Machine/Formatter.lean ====
section
/-! DEFINITION. The fifteen formatter commands (42_payload_rules.md §2), each one `issue` of its opcode (R75)
with the payload of its rule. -/

namespace Sys2Proof.Machine

/-- `set_servo_open_close` (R146). -/
def execSetServoOpenClose (servo : Int) (action : String) (s : State) : Result :=
  issue .setServoOpenClose 0x00 (servoOpenClosePayload servo action) s

/-- `set_servo_min` (R147). -/
def execSetServoMin (servo : Int) (v : NumVal) (s : State) : Result :=
  issue .setServoMin 0x01 (servoPulsePayload s.params.pulseEncoding servo v) s

/-- `set_servo_max` (R148). -/
def execSetServoMax (servo : Int) (v : NumVal) (s : State) : Result :=
  issue .setServoMax 0x02 (servoPulsePayload s.params.pulseEncoding servo v) s

/-- `set_servo_pct` (R149). -/
def execSetServoPct (servo : Int) (v : NumVal) (s : State) : Result :=
  issue .setServoPct 0x03 (servoPctPayload servo v) s

/-- `set_base_color` (R150). -/
def execSetBaseColor (wrgb : List Elem) (s : State) : Result :=
  issue .setBaseColor 0x04 (.ok (color4 wrgb)) s

/-- `set_temp_color` (R151). -/
def execSetTempColor (wrgb : List Elem) (time : Option (BitVec 32)) (s : State) : Result :=
  issue .setTempColor 0x05 (.ok (color4 wrgb ++ durationBytes time)) s

/-- `set_pixel_cycle` (R152). -/
def execSetPixelCycle (target delay : Int) (s : State) : Result :=
  issue .setPixelCycle 0x06 (reversedPairPayload target delay) s

/-- `set_trigger_switch` (R153). -/
def execSetTriggerSwitch (which howLong : Int) (s : State) : Result :=
  issue .setTriggerSwitch 0x07 (reversedPairPayload which howLong) s

/-- `set_switch_on` (R154). -/
def execSetSwitchOn (which : Int) (s : State) : Result :=
  issue .setSwitchOn 0x08 (indexPayload which) s

/-- `set_switch_off` (R155). -/
def execSetSwitchOff (which : Int) (s : State) : Result :=
  issue .setSwitchOff 0x09 (indexPayload which) s

/-- `set_laser_on` (R156). -/
def execSetLaserOn (s : State) : Result := issue .setLaserOn 0x0A (.ok []) s

/-- `set_laser_off` (R157). -/
def execSetLaserOff (s : State) : Result := issue .setLaserOff 0x0B (.ok []) s

/-- `request_thermal_reading` (R158). -/
def execRequestThermalReading (s : State) : Result := issue .requestThermalReading 0x0C (.ok []) s

/-- `reset_vrc_periph` (R159): a frame like the others; the codec itself is not reset. -/
def execResetVrcPeriph (s : State) : Result := issue .resetVrcPeriph 0x0D (.ok []) s

/-- `check_servo_controller` (R160). -/
def execCheckServoController (s : State) : Result := issue .checkServoController 0x0E (.ok []) s

end Sys2Proof.Machine
end

