-- ==== Sys2Proof/Machine/Frame.lean ====
section
/-! DEFINITION. ENCODE (41_encoder.md), RX_BYTE (43_decoder.md) and the frame opcode that has no formatter
command, SEND_THERMAL_READING (42_payload_rules.md R161). -/

namespace Sys2Proof.Machine

/-- ENCODE (R121). -/
def execEncode (op : Byte) (p : List Byte) (s : State) : Result := portOp (encodeEffect op p) s

/-- RX_BYTE (R181). -/
def execRxByte (b : Byte) (s : State) : Result := portOp (rxEffect b) s

/-- A frame of opcode 0x0F (R161; assumption log 7): sent by the host, it is the raw `enc 0x0F, p`; coming
from the device, it is the arrival of `build_frame(0x3E, 0x0F, p)` byte by byte, decoded by R191. -/
def execSendThermalReading (dir : Direction) (p : List Byte) (s : State) : Result :=
  match dir with
  | .hostToDevice => portOp (encodeEffect 0x0F p) s
  | .deviceToHost =>
    if 65534 < p.length then .refused .noSuchFrame
    else portOp (rxAll (buildFrame 0x3E 0x0F p)) s

end Sys2Proof.Machine
end

