-- ==== Sys2Proof/Machine/Dispatch.lean ====
section
/-! DEFINITION. One arm per operation. -/

namespace Sys2Proof.Machine

def exec (i : Instr) (s : State) : Host.Outcome State Fault Refusal :=
  match i with
  -- port operations
  | .reset arg => Sys2Proof.Machine.execReset arg s
  | .setDry arg => Sys2Proof.Machine.execSetDry arg s
  | .crcClear arg => Sys2Proof.Machine.execCrcClear arg s
  | .crcFeed d => Sys2Proof.Machine.execCrcFeed d s
  | .crcRead arg => Sys2Proof.Machine.execCrcRead arg s
  | .encode op p => Sys2Proof.Machine.execEncode op p s
  | .rxByte b => Sys2Proof.Machine.execRxByte b s
  | .readStatus arg => Sys2Proof.Machine.execReadStatus arg s
  -- frame opcodes
  | .setServoOpenClose servo action => Sys2Proof.Machine.execSetServoOpenClose servo action s
  | .setServoMin servo v => Sys2Proof.Machine.execSetServoMin servo v s
  | .setServoMax servo v => Sys2Proof.Machine.execSetServoMax servo v s
  | .setServoPct servo v => Sys2Proof.Machine.execSetServoPct servo v s
  | .setBaseColor wrgb => Sys2Proof.Machine.execSetBaseColor wrgb s
  | .setTempColor wrgb time => Sys2Proof.Machine.execSetTempColor wrgb time s
  | .setPixelCycle target delay => Sys2Proof.Machine.execSetPixelCycle target delay s
  | .setTriggerSwitch which howLong => Sys2Proof.Machine.execSetTriggerSwitch which howLong s
  | .setSwitchOn which => Sys2Proof.Machine.execSetSwitchOn which s
  | .setSwitchOff which => Sys2Proof.Machine.execSetSwitchOff which s
  | .setLaserOn => Sys2Proof.Machine.execSetLaserOn s
  | .setLaserOff => Sys2Proof.Machine.execSetLaserOff s
  | .requestThermalReading => Sys2Proof.Machine.execRequestThermalReading s
  | .resetVrcPeriph => Sys2Proof.Machine.execResetVrcPeriph s
  | .checkServoController => Sys2Proof.Machine.execCheckServoController s
  | .sendThermalReading dir p => Sys2Proof.Machine.execSendThermalReading dir p s

end Sys2Proof.Machine
end

