-- ==== Sys2Proof/Machine/Step.lean ====
section
/-! DEFINITION. One step: the codec takes the oldest pending request, decodes it and runs it (20_memory.md
R60). The codec fetches nothing and has no program counter (10_state.md R22); with no request pending it is
idle and all state survives (60_exceptions.md R254; assumption log 4). -/

namespace Sys2Proof.Machine

/-- One step of the codec. -/
def step (s : State) : Host.Outcome State Fault Refusal :=
  match s.port with
  | [] => .next s
  | r :: rest =>
    match decode r with
    | .ok i => exec i { s with port := rest }
    | .error why => .refused (.badRequest why)

/-- The state with the request of an opcode-table word put before the pending ones, where the next step
takes it (assumption log 4). -/
def State.withFetchWord (s : State) (nbits w : Nat) : State :=
  match tableRequest nbits w with
  | some r => { s with port := r :: s.port }
  | none => s

end Sys2Proof.Machine
end

