-- ==== Sys2Proof/Machine/Pseudo.lean ====
section
/-! DEFINITION. The two pseudo-operations of 30_encoding.md R84 that are no row of the opcode table, as the
port operations they expand to. (The formatter commands, R84's third line, are constructors of `Instr`.) -/

namespace Sys2Proof.Machine

/-- `poll [b0, ..., bk]` (43_decoder.md R196). -/
def pollOps (bs : List Byte) : List Instr := bs.map .rxByte

/-- `crc.fold [b0, ..., bk]` (40_crc.md R107). -/
def crcFoldOps (bs : List Byte) : List Instr := .crcClear 0 :: bs.map .crcFeed

end Sys2Proof.Machine
end

