-- ==== Sys2Proof/Safety.lean ====
section
/-! DEFINITION. The terms the claims use: runs, the shape of a sent frame, the invariants, and the CRC table
of 95_test_vectors.md §2.1. -/

namespace Sys2Proof.Safety

open Sys2Proof Sys2Proof.Machine

/-- The operations of a list, one after the other, stopping at the first that does not complete. -/
def runInstrs : List Instr → State → Result
  | [], s => .next s
  | i :: is, s =>
    match exec i s with
    | .next t => runInstrs is t
    | .fault f => .fault f
    | .refused r => .refused r

/-- `n` steps, stopping at the first that does not complete. -/
def stepN : Nat → State → Result
  | 0, s => .next s
  | n + 1, s =>
    match step s with
    | .next t => stepN n t
    | .fault f => .fault f
    | .refused r => .refused r

/-- An outcome with `f` applied to its next state. -/
def mapNext (f : State → State) : Result → Result
  | .next s => .next (f s)
  | .fault x => .fault x
  | .refused r => .refused r

/-- What one well-formed ENCODE leaves: the frame in the dry log or in `tx` (41_encoder.md R121, R122). -/
def sent (op : Byte) (p : List Byte) (s : State) : State :=
  if s.ctrlDry then { s with events := s.events ++ [.txDryFrame (buildFrame 0x3C op p)] }
  else { s with tx := s.tx ++ buildFrame 0x3C op p }

/-- What a dropped formatter command leaves (42_payload_rules.md R141). -/
def dropped (cmd : CmdName) (r : DropReason) (s : State) : State :=
  { s with events := s.events ++ [.cmdDropped cmd r] }

/-- What an aborted inbound frame leaves (43_decoder.md R194): one `RxDiscard` and a cleared decoder, in
SEEK_P when the byte is 0x24 and is looked at once more. -/
def aborted (code : RxCode) (b : Byte) (s : State) : State :=
  { s with
    events := s.events ++ [.rxDiscard code b]
    dec :=
      if s.params.rescanOnAbort = true ∧ b = 0x24 then { Decoder.idle with dstate := .seekP, dcrc := 0x5A }
      else Decoder.idle }

/-- The command name and the frame opcode of a formatter command (30_encoding.md R75, R85). -/
def formatterOp : Instr → Option (CmdName × Byte)
  | .setServoOpenClose _ _ => some (.setServoOpenClose, 0x00)
  | .setServoMin _ _ => some (.setServoMin, 0x01)
  | .setServoMax _ _ => some (.setServoMax, 0x02)
  | .setServoPct _ _ => some (.setServoPct, 0x03)
  | .setBaseColor _ => some (.setBaseColor, 0x04)
  | .setTempColor _ _ => some (.setTempColor, 0x05)
  | .setPixelCycle _ _ => some (.setPixelCycle, 0x06)
  | .setTriggerSwitch _ _ => some (.setTriggerSwitch, 0x07)
  | .setSwitchOn _ => some (.setSwitchOn, 0x08)
  | .setSwitchOff _ => some (.setSwitchOff, 0x09)
  | .setLaserOn => some (.setLaserOn, 0x0A)
  | .setLaserOff => some (.setLaserOff, 0x0B)
  | .requestThermalReading => some (.requestThermalReading, 0x0C)
  | .resetVrcPeriph => some (.resetVrcPeriph, 0x0D)
  | .checkServoController => some (.checkServoController, 0x0E)
  | .reset _ | .setDry _ | .crcClear _ | .crcFeed _ | .crcRead _ | .encode _ _ | .rxByte _ | .readStatus _ => none
  | .sendThermalReading _ _ => none

/-- ENCODE, as one of the two sides of 20_memory.md R61. -/
def isEncodeOp : Instr → Bool
  | .encode _ _ => true
  | _ => false

/-- RX_BYTE, as the other side of R61. -/
def isRxOp : Instr → Bool
  | .rxByte _ => true
  | _ => false

/-- The integers a one-byte argument can be (42_payload_rules.md R142). -/
abbrev IsByte (x : Int) : Prop := 0 ≤ x ∧ x ≤ 255

/-- A good colour array: four integers in 0..255, given as the bytes they are (42_payload_rules.md R144). -/
def colorArray (w r g b : Byte) : List Elem :=
  [.int w.toNat, .int r.toNat, .int g.toNat, .int b.toNat]

/-- What R147 and R148 say of a servo pulse command `mk` with name `cmd` and opcode `op`: `n` is the pulse
truncated, packed as R143 gives it under each `PULSE_ENCODING`. -/
def ServoPulseRule (mk : Int → NumVal → Instr) (cmd : CmdName) (op : Byte) : Prop :=
  ∀ (servo : Int) (s : State), s.wasReset = true →
    (¬ IsByte servo → ∀ x, exec (mk servo x) s = .next (dropped cmd .argRange s)) ∧
    (IsByte servo → exec (mk servo .notNum) s = .next (dropped cmd .notNumeric s)) ∧
    (IsByte servo → ∀ v : Rat, ¬ (0 < v ∧ v < 1000) →
      exec (mk servo (.rational v)) s = .next (dropped cmd .outOfRange s)) ∧
    (IsByte servo → ∀ (v : Rat) (n : Nat), 0 < v → v < 1000 → (n : Rat) ≤ v → v < (n : Rat) + 1 →
      (s.params.pulseEncoding = .u16be → exec (mk servo (.rational v)) s =
        .next (sent op [BitVec.ofInt 8 servo, BitVec.ofNat 8 (n / 256), BitVec.ofNat 8 (n % 256)] s)) ∧
      (s.params.pulseEncoding = .u16le → exec (mk servo (.rational v)) s =
        .next (sent op [BitVec.ofInt 8 servo, BitVec.ofNat 8 (n % 256), BitVec.ofNat 8 (n / 256)] s)) ∧
      (s.params.pulseEncoding = .u8 → n ≤ 255 → exec (mk servo (.rational v)) s =
        .next (sent op [BitVec.ofInt 8 servo, BitVec.ofNat 8 n] s)) ∧
      (s.params.pulseEncoding = .u8 → 255 < n → exec (mk servo (.rational v)) s =
        .next (dropped cmd .pulseExceedsByte s)))

/-- What R152 and R153 say of a two-argument command: the bytes go out in reversed order. -/
def ReversedPairRule (mk : Int → Int → Instr) (cmd : CmdName) (op : Byte) : Prop :=
  ∀ (first second : Int) (s : State), s.wasReset = true →
    (IsByte first → IsByte second → exec (mk first second) s =
      .next (sent op [BitVec.ofInt 8 second, BitVec.ofInt 8 first] s)) ∧
    (¬ (IsByte first ∧ IsByte second) → exec (mk first second) s = .next (dropped cmd .argRange s))

/-- What R154 and R155 say of a switch command. -/
def SwitchRule (mk : Int → Instr) (cmd : CmdName) (op : Byte) : Prop :=
  ∀ (which : Int) (s : State), s.wasReset = true →
    (IsByte which → exec (mk which) s = .next (sent op [BitVec.ofInt 8 which] s)) ∧
    (¬ IsByte which → exec (mk which) s = .next (dropped cmd .argRange s))

/-- What R156 to R160 say of a command without operands: its 7-byte frame `f`, sent or logged. -/
def OpcodeOnlyRule (i : Instr) (f : List Byte) : Prop :=
  ∀ s : State, s.wasReset = true →
    (s.ctrlDry = false → exec i s = .next { s with tx := s.tx ++ f }) ∧
    (s.ctrlDry = true → exec i s = .next { s with events := s.events ++ [.txDryFrame f] })

/-- The records of the decoder (20_memory.md R61). -/
def isRxRecord : Event → Bool
  | .rxFrame _ _ _ | .rxReading _ | .rxDiscard _ _ => true
  | .txDryFrame _ | .txError _ _ _ | .cmdDropped _ _ => false

/-- The decoder's records of a SEND_THERMAL_READING frame with payload `p` and checksum byte `c`, and of any
other accepted frame (43_decoder.md R190 to R193). -/
def frameRecords (op : Byte) (p : List Byte) (ok : Bool) (c : Byte) : List Event :=
  if op = 0x0F ∧ p.length = 64 then [.rxFrame op p ok, .rxReading (matrix p)]
  else if op = 0x0F then [.rxFrame op p ok, .rxDiscard .badReadingLen c]
  else [.rxFrame op p ok]

/-- Everything about the decoder that 10_state.md R27, R28, R29 and 43_decoder.md R195 say of each state:
which latches are set, how the payload collected and the count still expected make up the length, and that
`dcrc` is the CRC of the frame's bytes so far. -/
def DecoderOk (P : Params) (d : Decoder) : Prop :=
  match d.dstate with
  | .seekMark => d = Decoder.idle
  | .seekP => d = { Decoder.idle with dstate := .seekP, dcrc := crc8 [0x24] }
  | .seekD => d = { Decoder.idle with dstate := .seekD, dcrc := crc8 [0x24, 0x50] }
  | .lenHi => d = { Decoder.idle with dstate := .lenHi, dcrc := crc8 [0x24, 0x50, 0x3E] }
  | .lenLo =>
    d = { Decoder.idle with dstate := .lenLo, dhi := d.dhi, dcrc := crc8 [0x24, 0x50, 0x3E, d.dhi] }
  | .bodyOp =>
    d = { Decoder.idle with
          dstate := .bodyOp, dhi := hiByte d.dlen, dlen := d.dlen
          dcrc := crc8 [0x24, 0x50, 0x3E, hiByte d.dlen, loByte d.dlen] } ∧
    1 ≤ d.dlen.toNat ∧ d.dlen.toNat ≤ P.rxMaxLen
  | .payload =>
    d.dhi = hiByte d.dlen ∧ d.dlen.toNat ≤ P.rxMaxLen ∧ d.dop.toNat ≤ 15 ∧
    1 ≤ d.dcnt.toNat ∧ d.dbuf.length + d.dcnt.toNat + 1 = d.dlen.toNat ∧
    d.dcrc = crc8 ([0x24, 0x50, 0x3E, hiByte d.dlen, loByte d.dlen, d.dop] ++ d.dbuf)
  | .rxCrc =>
    d.dhi = hiByte d.dlen ∧ d.dlen.toNat ≤ P.rxMaxLen ∧ d.dop.toNat ≤ 15 ∧
    d.dcnt = 0 ∧ d.dbuf.length + 1 = d.dlen.toNat ∧
    d.dcrc = crc8 ([0x24, 0x50, 0x3E, hiByte d.dlen, loByte d.dlen, d.dop] ++ d.dbuf)

/-- The decoder's invariant. Before the first RESET its latches are unspecified (10_state.md R38). -/
def DecoderInv (s : State) : Prop :=
  s.params.wf ∧ (s.wasReset = true → DecoderOk s.params s.dec)

/-- Which reasons can drop which command (42_payload_rules.md R146 to R160). -/
def mayDrop : CmdName → DropReason → Bool
  | .setServoOpenClose, r => r == .argRange || r == .badAction
  | .setServoMin, r | .setServoMax, r => r != .badAction
  | .setServoPct, r => r == .argRange || r == .notNumeric || r == .outOfRange
  | .setPixelCycle, r | .setTriggerSwitch, r | .setSwitchOn, r | .setSwitchOff, r => r == .argRange
  | .setBaseColor, _ | .setTempColor, _ | .setLaserOn, _ | .setLaserOff, _ => false
  | .requestThermalReading, _ | .resetVrcPeriph, _ | .checkServoController, _ => false

/-- A frame ENCODE can send (30_encoding.md R70, R73). -/
def IsHostFrame (f : List Byte) : Prop :=
  ∃ op : Byte, ∃ p : List Byte, op.toNat ≤ 15 ∧ p.length ≤ 65534 ∧ f = buildFrame 0x3C op p

/-- The records of a cause that no other record of the same operation goes with. An `RxFrame` of opcode 0x0F
never stands alone: its reading, or the discard of its wrong length, comes right after it (43_decoder.md R190,
R191, R193), and neither of these stands alone. -/
def standsAlone : Event → Bool
  | .rxFrame _ _ _ | .rxReading _ | .rxDiscard .badReadingLen _ => false
  | .rxDiscard _ _ | .txDryFrame _ | .txError _ _ _ | .cmdDropped _ _ => true

/-- The records one cause emits: those of one accepted frame with opcode `op`, payload `p` and checksum byte
`c`, whose `crc_ok` says whether `c` is the CRC of the frame's other bytes (43_decoder.md R189, R195), or one
other record. -/
def IsRecordGroup (g : List Event) : Prop :=
  (∃ (op : Byte) (p : List Byte) (c : Byte), g = frameRecords op p (decide (c = crc8 (frameBody 0x3E op p))) c) ∨
  ∃ e, g = [e] ∧ standsAlone e = true

/-- The event stream is a sequence of such groups (43_decoder.md R201, 20_memory.md R60). -/
def RecordsGrouped (es : List Event) : Prop :=
  ∃ gs : List (List Event), es = gs.flatten ∧ ∀ g ∈ gs, IsRecordGroup g

/-- The cause column and the info column of 60_exceptions.md R242 for RX_BYTE of `b` in a state `s`: what is
true when it emits an `RxDiscard`, and for the results what 43_decoder.md R190 and R191 say. -/
def RxCause (b : Byte) (s : State) : Event → Prop
  | .rxDiscard .badMark x => x = b ∧ s.dec.dstate = .seekP ∧ b ≠ 0x50
  | .rxDiscard .badDir x => x = b ∧ s.dec.dstate = .seekD ∧ b ≠ 0x3E
  | .rxDiscard .badLen x => x = b ∧ s.dec.dstate = .lenLo ∧ s.dec.dhi.toNat * 256 + b.toNat = 0
  | .rxDiscard .lenTooLong x =>
    x = b ∧ s.dec.dstate = .lenLo ∧ s.params.rxMaxLen < s.dec.dhi.toNat * 256 + b.toNat
  | .rxDiscard .badOpcode x => x = b ∧ s.dec.dstate = .bodyOp ∧ 15 < b.toNat
  | .rxDiscard .badCrc x => x = b ∧ s.dec.dstate = .rxCrc ∧ s.params.verifyCrc = true ∧ b ≠ s.dec.dcrc
  | .rxDiscard .badReadingLen x =>
    x = b ∧ s.dec.dstate = .rxCrc ∧ s.dec.dop = 0x0F ∧ s.dec.dbuf.length ≠ 64 ∧
      (s.params.verifyCrc = false ∨ b = s.dec.dcrc)
  | .rxFrame op p ok =>
    op = s.dec.dop ∧ p = s.dec.dbuf ∧ ok = decide (b = s.dec.dcrc) ∧ s.dec.dstate = .rxCrc ∧
      (s.params.verifyCrc = false ∨ b = s.dec.dcrc)
  | .rxReading m =>
    m = matrix s.dec.dbuf ∧ s.dec.dstate = .rxCrc ∧ s.dec.dop = 0x0F ∧ s.dec.dbuf.length = 64 ∧
      (s.params.verifyCrc = false ∨ b = s.dec.dcrc)
  | .txDryFrame _ | .txError _ _ _ | .cmdDropped _ _ => False

/-- The same columns for ENCODE of `op` and `p`. -/
def EncodeCause (op : Byte) (p : List Byte) (s : State) : Event → Prop
  | .txError .badOpcode o n => o = op ∧ n = p.length ∧ 15 < op.toNat
  | .txError .lenOverflow o n => o = op ∧ n = p.length ∧ op.toNat ≤ 15 ∧ 65534 < p.length
  | .txDryFrame f => s.ctrlDry = true ∧ op.toNat ≤ 15 ∧ p.length ≤ 65534 ∧ f = buildFrame 0x3C op p
  | .rxFrame _ _ _ | .rxReading _ | .rxDiscard _ _ | .cmdDropped _ _ => False

/-- What each kind of record may say (10_state.md R33, the cause column of 60_exceptions.md R242). -/
def EventOk (P : Params) : Event → Prop
  | .rxFrame op p ok => op.toNat ≤ 15 ∧ p.length + 1 ≤ P.rxMaxLen ∧ (P.verifyCrc = true → ok = true)
  | .rxReading _ => 65 ≤ P.rxMaxLen
  | .rxDiscard .badMark b => b ≠ 0x50
  | .rxDiscard .badDir b => b ≠ 0x3E
  | .rxDiscard .badLen b => b = 0
  | .rxDiscard .lenTooLong _ => P.rxMaxLen < 65535
  | .rxDiscard .badOpcode b => 15 < b.toNat
  | .rxDiscard .badCrc _ => P.verifyCrc = true
  | .rxDiscard .badReadingLen _ => True
  | .txDryFrame f => IsHostFrame f
  | .txError .badOpcode op _ => 15 < op.toNat
  | .txError .lenOverflow op n => op.toNat ≤ 15 ∧ 65534 < n
  | .cmdDropped cmd r => mayDrop cmd r = true

/-- The TX stream is a sequence of whole frames (20_memory.md R57, R60). -/
def TxOk (tx : List Byte) : Prop :=
  ∃ fs : List (List Byte), tx = fs.flatten ∧ ∀ f ∈ fs, IsHostFrame f

/-- The output streams' invariant, beside the decoder's: each record by itself, the records that go together,
and `tx`. -/
def StreamInv (s : State) : Prop :=
  DecoderInv s ∧ (∀ e ∈ s.events, EventOk s.params e) ∧ RecordsGrouped s.events ∧ TxOk s.tx

/-- The one-byte table `T[i] = crc_step(0, i)` as 95_test_vectors.md §2.1 prints it, row by row. -/
def crcTable : List Byte :=
  [0x00, 0xD5, 0x7F, 0xAA, 0xFE, 0x2B, 0x81, 0x54, 0x29, 0xFC, 0x56, 0x83, 0xD7, 0x02, 0xA8, 0x7D] ++
  [0x52, 0x87, 0x2D, 0xF8, 0xAC, 0x79, 0xD3, 0x06, 0x7B, 0xAE, 0x04, 0xD1, 0x85, 0x50, 0xFA, 0x2F] ++
  [0xA4, 0x71, 0xDB, 0x0E, 0x5A, 0x8F, 0x25, 0xF0, 0x8D, 0x58, 0xF2, 0x27, 0x73, 0xA6, 0x0C, 0xD9] ++
  [0xF6, 0x23, 0x89, 0x5C, 0x08, 0xDD, 0x77, 0xA2, 0xDF, 0x0A, 0xA0, 0x75, 0x21, 0xF4, 0x5E, 0x8B] ++
  [0x9D, 0x48, 0xE2, 0x37, 0x63, 0xB6, 0x1C, 0xC9, 0xB4, 0x61, 0xCB, 0x1E, 0x4A, 0x9F, 0x35, 0xE0] ++
  [0xCF, 0x1A, 0xB0, 0x65, 0x31, 0xE4, 0x4E, 0x9B, 0xE6, 0x33, 0x99, 0x4C, 0x18, 0xCD, 0x67, 0xB2] ++
  [0x39, 0xEC, 0x46, 0x93, 0xC7, 0x12, 0xB8, 0x6D, 0x10, 0xC5, 0x6F, 0xBA, 0xEE, 0x3B, 0x91, 0x44] ++
  [0x6B, 0xBE, 0x14, 0xC1, 0x95, 0x40, 0xEA, 0x3F, 0x42, 0x97, 0x3D, 0xE8, 0xBC, 0x69, 0xC3, 0x16] ++
  [0xEF, 0x3A, 0x90, 0x45, 0x11, 0xC4, 0x6E, 0xBB, 0xC6, 0x13, 0xB9, 0x6C, 0x38, 0xED, 0x47, 0x92] ++
  [0xBD, 0x68, 0xC2, 0x17, 0x43, 0x96, 0x3C, 0xE9, 0x94, 0x41, 0xEB, 0x3E, 0x6A, 0xBF, 0x15, 0xC0] ++
  [0x4B, 0x9E, 0x34, 0xE1, 0xB5, 0x60, 0xCA, 0x1F, 0x62, 0xB7, 0x1D, 0xC8, 0x9C, 0x49, 0xE3, 0x36] ++
  [0x19, 0xCC, 0x66, 0xB3, 0xE7, 0x32, 0x98, 0x4D, 0x30, 0xE5, 0x4F, 0x9A, 0xCE, 0x1B, 0xB1, 0x64] ++
  [0x72, 0xA7, 0x0D, 0xD8, 0x8C, 0x59, 0xF3, 0x26, 0x5B, 0x8E, 0x24, 0xF1, 0xA5, 0x70, 0xDA, 0x0F] ++
  [0x20, 0xF5, 0x5F, 0x8A, 0xDE, 0x0B, 0xA1, 0x74, 0x09, 0xDC, 0x76, 0xA3, 0xF7, 0x22, 0x88, 0x5D] ++
  [0xD6, 0x03, 0xA9, 0x7C, 0x28, 0xFD, 0x57, 0x82, 0xFF, 0x2A, 0x80, 0x55, 0x01, 0xD4, 0x7E, 0xAB] ++
  [0x84, 0x51, 0xFB, 0x2E, 0x7A, 0xAF, 0x05, 0xD0, 0xAD, 0x78, 0xD2, 0x07, 0x53, 0x86, 0x2C, 0xF9]

end Sys2Proof.Safety
end

