-- ==== Sys2Proof/Certificates/Slice0/Obligations.lean ====
section
/-! DEFINITION. The statements for the provers. Each docstring names the rules of spec/ it formalises. Most
rules of this spec carry a decision mark (D<n>, 92_eei_decisions.md): they are the spec's own rules all the
same. A rule the spec marks as derived, and what an assumption log entry chose, is stated on basis
'derived'. -/

open Sys2Proof Sys2Proof.Machine Sys2Proof.Safety

/-! ## Encoding and stepping -/

/-- Decoding what the encoder writes gives the operation back, every operand at every value. The form of a
formatter command's request is the model's (assumption logs 6 and 7). -/
def Obligations.EncodeThenDecode : Prop :=
  ∀ i : Instr, i.WellFormed = true → decode (encode i) = .ok i

/-- Each request has one meaning, and the decoder yields only well-formed operations. The form of a formatter
command's request is the model's (assumption logs 6 and 7). -/
def Obligations.DecodeThenEncode : Prop :=
  ∀ (r : Request) (i : Instr), decode r = .ok i → encode i = r ∧ i.WellFormed = true

/-- The op-select table of R81: every 11-bit command word is an operation, chosen by bits 10:8, with its
argument in bits 7:0; only ENCODE takes a payload, of up to 65535 bytes (R80). -/
def Obligations.EveryCommandWordIsAnOperation : Prop :=
  (∀ w : BitVec 11, ∃ i, decode (.port w []) = .ok i) ∧
  (∀ a : Byte,
    decode (.port (0x000#11 ||| a.setWidth 11) []) = .ok (.reset a) ∧
    decode (.port (0x100#11 ||| a.setWidth 11) []) = .ok (.setDry a) ∧
    decode (.port (0x200#11 ||| a.setWidth 11) []) = .ok (.crcClear a) ∧
    decode (.port (0x300#11 ||| a.setWidth 11) []) = .ok (.crcFeed a) ∧
    decode (.port (0x400#11 ||| a.setWidth 11) []) = .ok (.crcRead a) ∧
    decode (.port (0x500#11 ||| a.setWidth 11) []) = .ok (.encode a []) ∧
    decode (.port (0x600#11 ||| a.setWidth 11) []) = .ok (.rxByte a) ∧
    decode (.port (0x700#11 ||| a.setWidth 11) []) = .ok (.readStatus a)) ∧
  (∀ (w : BitVec 11) (p : List Byte) (i : Instr), decode (.port w p) = .ok i → p ≠ [] →
    p.length ≤ 65535 ∧ ∃ op, i = .encode op p)

/-- A few words written out from the spec's tables: R81 and R83 for the port, R75 and R85 for the commands.
The form of a command's request and of a table word is the model's (assumption logs 6 and 8), and so is the
request of code 0x0F, which is no word of the tables (assumption log 7). -/
def Obligations.SpecWordsDecode : Prop :=
  decode (.port 0x324#11 []) = .ok (.crcFeed 0x24) ∧
  decode (.port 0x101#11 []) = .ok (.setDry 1) ∧
  decode (.port 0x500#11 [0x02, 0x96]) = .ok (.encode 0x00 [0x02, 0x96]) ∧
  decode (.port 0x66E#11 []) = .ok (.rxByte 0x6E) ∧
  decode (.command 0x06 [.int 16, .int 250]) = .ok (.setPixelCycle 16 250) ∧
  decode (.command 0x0D []) = .ok .resetVrcPeriph ∧
  decode (.command 0x0F [.dir .deviceToHost, .bytes [0x80]]) = .ok (.sendThermalReading .deviceToHost [0x80]) ∧
  decodeTableWord 16 0x700 = some (.readStatus 0) ∧
  decodeTableWord 8 0x0A = some .setLaserOn

/-- A step takes the oldest pending request and runs the operation it decodes to; a request that is none is
refused by name; with no request the state survives. A word of the opcode table put where the step looks is
the operation it runs. The model's own are the pending requests (assumption log 4), what is refused as no
operation (assumption logs 6 and 10) and the table words' layout (assumption log 8). -/
def Obligations.StepRunsDecodedOperation : Prop :=
  ∀ s : State,
    (s.port = [] → step s = .next s) ∧
    (∀ r rest, s.port = r :: rest →
      (∀ i, decode r = .ok i → step s = exec i { s with port := rest }) ∧
      (∀ why, decode r = .error why → step s = .refused (.badRequest why))) ∧
    (∀ nbits w i, decodeTableWord nbits w = some i → step (s.withFetchWord nbits w) = exec i s)

/-- Requests issued together run in the order they were issued, one a step (20_memory.md §5). The pending
requests are the model's own (assumption log 4). -/
def Obligations.IssuedRequestsRunInOrder : Prop :=
  ∀ (l : List Instr) (s : State), (∀ i ∈ l, i.WellFormed = true) → s.port = [] →
    stepN l.length { s with port := l.map encode } = runInstrs l s

/-- R82: the argument bits an operation ignores have no effect, and ENCODE's opcode check sees all eight. -/
def Obligations.IgnoredArgumentBits : Prop :=
  ∀ (a b : Byte) (s : State),
    exec (.reset a) s = exec (.reset b) s ∧
    exec (.crcClear a) s = exec (.crcClear b) s ∧
    exec (.crcRead a) s = exec (.crcRead b) s ∧
    exec (.readStatus a) s = exec (.readStatus b) s ∧
    (a.getLsbD 0 = b.getLsbD 0 → exec (.setDry a) s = exec (.setDry b) s) ∧
    (∀ p : List Byte, p.length ≤ 65535 →
      decode (.port (0x500#11 ||| a.setWidth 11) p) = .ok (.encode a p) ∧
      (s.wasReset = true → 15 < a.toNat →
        exec (.encode a p) s = .next { s with events := s.events ++ [.txError .badOpcode a p.length] }))

/-! ## The CRC generator -/

/-- The spec's printed table: `crc_step(c, b) = T[c xor b]`. -/
def Obligations.CrcStepIsTableLookup : Prop :=
  ∀ c b : Byte, crcTable[(c ^^^ b).toNat]? = some (crcStep c b)

/-- The laws of `crc8`: empty list, leading zeros, concatenation, linearity, residue. -/
def Obligations.CrcLaws : Prop :=
  crc8 [] = 0 ∧
  (∀ a, crc8 (0x00 :: a) = crc8 a) ∧
  (∀ a b, crc8 (a ++ b) = b.foldl crcStep (crc8 a)) ∧
  (∀ a b : List Byte, a.length = b.length →
    crc8 (List.zipWith (fun x y => x ^^^ y) a b) = crc8 a ^^^ crc8 b) ∧
  (∀ a, crc8 (a ++ [crc8 a]) = 0)

/-- R104, CRC_CLEAR (decisions D2, D6). -/
def Obligations.CrcClearRule : Prop :=
  ∀ (arg : Byte) (s : State),
    decode (.port (0x200#11 ||| arg.setWidth 11) []) = .ok (.crcClear arg) ∧
    (s.wasReset = true → exec (.crcClear arg) s = .next { s with crc := 0x00 }) ∧
    (s.wasReset = false → exec (.crcClear arg) s = .fault .notReset)

/-- R105, CRC_FEED (decisions D2, D6), with its corner cases and its example. -/
def Obligations.CrcFeedRule : Prop :=
  (∀ (d : Byte) (s : State),
    decode (.port (0x300#11 ||| d.setWidth 11) []) = .ok (.crcFeed d) ∧
    (s.wasReset = true → exec (.crcFeed d) s = .next { s with crc := crcStep s.crc d }) ∧
    (s.wasReset = false → exec (.crcFeed d) s = .fault .notReset)) ∧
  (∀ s : State, s.wasReset = true → s.crc = 0 →
    exec (.crcFeed 0) s = .next s ∧ exec (.crcFeed 0x24) s = .next { s with crc := 0x5A }) ∧
  (∀ s : State, s.wasReset = true → exec (.crcFeed s.crc) s = .next { s with crc := 0 })

/-- R106, CRC_READ (decisions D2, D40): the result is the register's value, and nothing else changes. The
list that holds the results returned is the model's own (assumption log 5). -/
def Obligations.CrcReadRule : Prop :=
  ∀ (arg : Byte) (s : State),
    decode (.port (0x400#11 ||| arg.setWidth 11) []) = .ok (.crcRead arg) ∧
    (s.wasReset = true → exec (.crcRead arg) s = .next { s with results := s.results ++ [s.crc] }) ∧
    (s.wasReset = true →
      runInstrs [.crcRead arg, .crcRead arg] s = .next { s with results := s.results ++ [s.crc, s.crc] }) ∧
    (s.wasReset = false → exec (.crcRead arg) s = .fault .notReset)

/-- `crc.fold` leaves the CRC of its bytes in the register, and changes nothing else. -/
def Obligations.CrcFoldComputesCrc8 : Prop :=
  ∀ (l : List Byte) (s : State), s.wasReset = true → runInstrs (crcFoldOps l) s = .next { s with crc := crc8 l }

/-- R108: only RESET (to 0), CRC_CLEAR and CRC_FEED write the register; ENCODE and RX_BYTE do the same
whatever it holds and hand it on unchanged, and ENCODE's checksum is `crc8` of the frame's other bytes
(decision D6). -/
def Obligations.CrcRegisterWriters : Prop :=
  (∀ (i : Instr) (s t : State), exec i s = .next t → t.crc ≠ s.crc →
    ((∃ a, i = .reset a) ∧ t.crc = 0) ∨ (∃ a, i = .crcClear a) ∨ ∃ d, i = .crcFeed d) ∧
  (∀ (c op : Byte) (p : List Byte) (s : State),
    exec (.encode op p) { s with crc := c } = mapNext (fun t => { t with crc := c }) (exec (.encode op p) s)) ∧
  (∀ (c b : Byte) (s : State),
    exec (.rxByte b) { s with crc := c } = mapNext (fun t => { t with crc := c }) (exec (.rxByte b) s)) ∧
  (∀ (op : Byte) (p : List Byte) (s : State),
    s.wasReset = true → op.toNat ≤ 15 → p.length ≤ 65534 → s.ctrlDry = false →
    ∃ f : List Byte, exec (.encode op p) s = .next { s with tx := s.tx ++ f ++ [crc8 f] })

/-! ## The encoder -/

/-- R70 and R74: the frame's layout, offset by offset, and its checksum over every byte before it. -/
def Obligations.FrameLayout : Prop :=
  ∀ (dir op : Byte) (p : List Byte), p.length ≤ 65534 →
    (buildFrame dir op p).length = p.length + 7 ∧
    (buildFrame dir op p)[0]? = some 0x24 ∧
    (buildFrame dir op p)[1]? = some 0x50 ∧
    (buildFrame dir op p)[2]? = some dir ∧
    (∃ hi lo : Byte, (buildFrame dir op p)[3]? = some hi ∧ (buildFrame dir op p)[4]? = some lo ∧
      hi.toNat * 256 + lo.toNat = 1 + p.length) ∧
    (buildFrame dir op p)[5]? = some op ∧
    (∀ k, k < p.length → (buildFrame dir op p)[6 + k]? = p[k]?) ∧
    (buildFrame dir op p)[6 + p.length]? = some (crc8 ((buildFrame dir op p).take (6 + p.length)))

/-- R121 to R124, ENCODE (decisions D8, D9, D10, D34): the fault, the two error records, the dry log and the
sent frame. -/
def Obligations.EncodeRule : Prop :=
  ∀ (op : Byte) (p : List Byte) (s : State),
    (p.length ≤ 65535 → decode (.port (0x500#11 ||| op.setWidth 11) p) = .ok (.encode op p)) ∧
    (s.wasReset = false → exec (.encode op p) s = .fault .notReset) ∧
    (s.wasReset = true → 15 < op.toNat →
      exec (.encode op p) s = .next { s with events := s.events ++ [.txError .badOpcode op p.length] }) ∧
    (s.wasReset = true → op.toNat ≤ 15 → 65534 < p.length →
      exec (.encode op p) s = .next { s with events := s.events ++ [.txError .lenOverflow op p.length] }) ∧
    (s.wasReset = true → op.toNat ≤ 15 → p.length ≤ 65534 → s.ctrlDry = true →
      exec (.encode op p) s = .next { s with events := s.events ++ [.txDryFrame (buildFrame 0x3C op p)] }) ∧
    (s.wasReset = true → op.toNat ≤ 15 → p.length ≤ 65534 → s.ctrlDry = false →
      exec (.encode op p) s = .next { s with tx := s.tx ++ buildFrame 0x3C op p })

/-- R36: ENCODE reads only its operands, `ctrl_dry` and `was_reset`, and writes only `tx` or `events`: what it
appends is a function of the operands and of the dry switch alone, and it appends to one stream at most. -/
def Obligations.EncodeIsStateless : Prop :=
  ∀ (op : Byte) (p : List Byte), ∃ out : Bool → List Byte × List Event,
    (∀ d, (out d).1 = [] ∨ (out d).2 = []) ∧
    ∀ s : State,
      exec (.encode op p) s =
        if s.wasReset then
          .next { s with tx := s.tx ++ (out s.ctrlDry).1, events := s.events ++ (out s.ctrlDry).2 }
        else .fault .notReset

/-- Whatever a step adds to `tx` is one whole frame with direction 0x3C, and nothing but ENCODE, a formatter
command or an outbound SEND_THERMAL_READING adds one (20_memory.md §3). That the last is an operation of its
own is the model's choice (assumption log 7). -/
def Obligations.TxGrowsByWholeFrames : Prop :=
  ∀ (i : Instr) (s t : State), exec i s = .next t → t.tx ≠ s.tx →
    (isEncodeOp i = true ∨ (formatterOp i).isSome = true ∨ ∃ p, i = .sendThermalReading .hostToDevice p) ∧
    ∃ (op : Byte) (p : List Byte), op.toNat ≤ 15 ∧ p.length ≤ 65534 ∧
      t.tx = s.tx ++ buildFrame 0x3C op p ∧ (buildFrame 0x3C op p).length = p.length + 7

/-! ## The decoder -/

/-- R182, R183, R184 and the abort of R194 (decisions D12, D23): the three bytes of the header. -/
def Obligations.HeaderArms : Prop :=
  ∀ (b : Byte) (s : State), s.wasReset = true →
    (s.dec.dstate = .seekMark → b = 0x24 →
      exec (.rxByte b) s = .next { s with dec := { s.dec with dcrc := 0x5A, dstate := .seekP } }) ∧
    (s.dec.dstate = .seekMark → b ≠ 0x24 → exec (.rxByte b) s = .next s) ∧
    (s.dec.dstate = .seekP → b = 0x50 →
      exec (.rxByte b) s = .next { s with dec := { s.dec with dcrc := crcStep s.dec.dcrc b, dstate := .seekD } }) ∧
    (s.dec.dstate = .seekP → b ≠ 0x50 → exec (.rxByte b) s = .next (aborted .badMark b s)) ∧
    (s.dec.dstate = .seekD → b = 0x3E →
      exec (.rxByte b) s = .next { s with dec := { s.dec with dcrc := crcStep s.dec.dcrc b, dstate := .lenHi } }) ∧
    (s.dec.dstate = .seekD → b ≠ 0x3E → exec (.rxByte b) s = .next (aborted .badDir b s))

/-- R185, R186 (decisions D13, D14): the two length bytes, big-endian, and the two length checks. -/
def Obligations.LengthArms : Prop :=
  ∀ (b : Byte) (s : State), s.wasReset = true →
    (s.dec.dstate = .lenHi →
      exec (.rxByte b) s =
        .next { s with dec := { s.dec with dhi := b, dcrc := crcStep s.dec.dcrc b, dstate := .lenLo } }) ∧
    (s.dec.dstate = .lenLo → ∀ L : Nat, L = s.dec.dhi.toNat * 256 + b.toNat →
      (L = 0 → exec (.rxByte b) s = .next (aborted .badLen b s)) ∧
      (L ≠ 0 → s.params.rxMaxLen < L → exec (.rxByte b) s = .next (aborted .lenTooLong b s)) ∧
      (L ≠ 0 → L ≤ s.params.rxMaxLen →
        exec (.rxByte b) s = .next { s with dec :=
          { s.dec with dlen := BitVec.ofNat 16 L, dcrc := crcStep s.dec.dcrc b, dstate := .bodyOp } }))

/-- R187, R188 (decision D15): the opcode and the payload bytes. -/
def Obligations.BodyArms : Prop :=
  ∀ (b : Byte) (s : State), s.wasReset = true →
    (s.dec.dstate = .bodyOp → 15 < b.toNat → exec (.rxByte b) s = .next (aborted .badOpcode b s)) ∧
    (s.dec.dstate = .bodyOp → b.toNat ≤ 15 →
      exec (.rxByte b) s = .next { s with dec :=
        { s.dec with
          dop := b, dcrc := crcStep s.dec.dcrc b, dbuf := [], dcnt := s.dec.dlen - 1
          dstate := if s.dec.dlen = 1 then .rxCrc else .payload } }) ∧
    (s.dec.dstate = .payload →
      exec (.rxByte b) s = .next { s with dec :=
        { s.dec with
          dbuf := s.dec.dbuf ++ [b], dcrc := crcStep s.dec.dcrc b, dcnt := s.dec.dcnt - 1
          dstate := if s.dec.dcnt = 1 then .rxCrc else .payload } })

/-- R189 to R193 (decisions D16 to D19): the checksum byte, the two checksum policies, and the records of an
accepted frame. -/
def Obligations.ChecksumArm : Prop :=
  ∀ (b : Byte) (s : State), s.wasReset = true → s.dec.dstate = .rxCrc →
    (s.params.verifyCrc = true → b ≠ s.dec.dcrc → exec (.rxByte b) s = .next (aborted .badCrc b s)) ∧
    (s.params.verifyCrc = false ∨ b = s.dec.dcrc →
      exec (.rxByte b) s = .next { s with
        dec := Decoder.idle
        events := s.events ++ frameRecords s.dec.dop s.dec.dbuf (decide (b = s.dec.dcrc)) b })

/-- R34: a reading is row-major, the bytes themselves. -/
def Obligations.ReadingIsRowMajor : Prop :=
  ∀ (p : List Byte) (hp : p.length = 64) (r c : Nat) (hr : r < 8) (hc : c < 8),
    ((matrix p)[r]'hr)[c]'hc = p[8 * r + c]'(by omega)

/-- R198: decode failures are records. RX_BYTE never faults except NotReset; it changes the decoder and
appends records, nothing else; and a byte that ends a partial frame leaves one `RxDiscard` with that byte, or,
in RX_CRC only, the records of the accepted frame. -/
def Obligations.DecodeFailuresAreRecords : Prop :=
  ∀ (b : Byte) (s : State),
    (s.wasReset = false → exec (.rxByte b) s = .fault .notReset) ∧
    (s.wasReset = true → ∃ (d : Decoder) (es : List Event),
      exec (.rxByte b) s = .next { s with dec := d, events := s.events ++ es } ∧
      (s.dec.dstate ≠ .seekMark → d.dstate = .seekMark ∨ d.dstate = .seekP →
        (∃ code, es = [.rxDiscard code b]) ∨
          (s.dec.dstate = .rxCrc ∧ es = frameRecords s.dec.dop s.dec.dbuf (decide (b = s.dec.dcrc)) b)))

/-- One byte produces at most two records, in the shapes listed. -/
def Obligations.AtMostTwoRecordsPerByte : Prop :=
  ∀ (b : Byte) (s t : State), exec (.rxByte b) s = .next t → ∃ es : List Event, t.events = s.events ++ es ∧
    (es = [] ∨ (∃ c, es = [.rxDiscard c b]) ∨ ∃ op p ok, es = [.rxFrame op p ok] ∨
      (∃ m, es = [.rxFrame op p ok, .rxReading m]) ∨ es = [.rxFrame op p ok, .rxDiscard .badReadingLen b])

/-- R196 (decision D21): a poll is RX_BYTE of each of its bytes in order, an empty poll does nothing, how bytes
are split among polls does not matter, and after RESET a poll folds the decoder's step over its bytes. -/
def Obligations.PollSplitDoesNotMatter : Prop :=
  (∀ s : State, runInstrs (pollOps []) s = .next s) ∧
  (∀ (b : Byte) (bs : List Byte) (s : State),
    runInstrs (pollOps (b :: bs)) s = runInstrs (.rxByte b :: pollOps bs) s) ∧
  (∀ (a b : List Byte) (s t : State), runInstrs (pollOps a) s = .next t →
    runInstrs (pollOps (a ++ b)) s = runInstrs (pollOps b) t) ∧
  (∀ (a : List Byte) (s : State), s.wasReset = true →
    ∀ x : Decoder × List Event,
      x = a.foldl (fun x b => ((decoderStep s.params x.1 b).1, x.2 ++ (decoderStep s.params x.1 b).2))
        (s.dec, s.events) →
      runInstrs (pollOps a) s = .next { s with dec := x.1, events := x.2 })

/-- The loopback round trip: a device frame fed to a decoder in SEEK_MARK is decoded whole, for every value
of the parameters it fits under; a host frame is rejected at its direction byte. -/
def Obligations.LoopbackRoundTrip : Prop :=
  ∀ (op : Byte) (p : List Byte) (s : State), s.wasReset = true → s.dec.dstate = .seekMark →
    (op.toNat ≤ 15 → p.length ≤ 65534 → p.length + 1 ≤ s.params.rxMaxLen →
      runInstrs (pollOps (buildFrame 0x3E op p)) s = .next { s with
        dec := Decoder.idle
        events := s.events ++ frameRecords op p true (crc8 (frameBody 0x3E op p)) }) ∧
    runInstrs (pollOps ((buildFrame 0x3C op p).take 3)) s = .next (aborted .badDir 0x3C s)

/-- Resynchronisation: noise without 24 50 3E yields only discards and leaves the decoder in one of its
first three states; a frame after it is decoded whole when the decoder re-examines bytes or is in SEEK_MARK,
and otherwise loses its first byte to the abort. -/
def Obligations.Resynchronisation : Prop :=
  ∀ (n : List Byte) (s : State), s.wasReset = true → s.dec.dstate = .seekMark → ¬ [0x24, 0x50, 0x3E] <:+: n →
    ∃ (d : Decoder) (es : List Event) (t : State), t = { s with dec := d, events := s.events ++ es } ∧
      runInstrs (pollOps n) s = .next t ∧
      (∀ e ∈ es, ∃ c b, e = .rxDiscard c b) ∧
      (d.dstate = .seekMark ∨ d.dstate = .seekP ∨ d.dstate = .seekD) ∧
      (∀ (op : Byte) (p : List Byte), op.toNat ≤ 15 → p.length ≤ 65534 → p.length + 1 ≤ s.params.rxMaxLen →
        s.params.rescanOnAbort = true ∨ d.dstate = .seekMark →
        ∃ pre : List Event,
          (if d.dstate = .seekMark then pre = [] else ∃ c, pre = [.rxDiscard c 0x24]) ∧
          runInstrs (pollOps (buildFrame 0x3E op p)) t = .next { t with
            dec := Decoder.idle
            events := t.events ++ pre ++ frameRecords op p true (crc8 (frameBody 0x3E op p)) }) ∧
      (s.params.rescanOnAbort = false → d.dstate ≠ .seekMark →
        ∃ c, exec (.rxByte 0x24) t =
          .next { t with dec := Decoder.idle, events := t.events ++ [.rxDiscard c 0x24] })

/-- The encoder side and the decoder side share no state: however ENCODEs and RX_BYTEs are interleaved, `tx`
is that of the ENCODEs alone, and the decoder and its records are those of the RX_BYTEs alone. -/
def Obligations.EncodeDecodeIndependence : Prop :=
  ∀ (l : List Instr) (s : State), s.wasReset = true → (∀ i ∈ l, isEncodeOp i = true ∨ isRxOp i = true) →
    ∃ t te tr : State, runInstrs l s = .next t ∧
      runInstrs (l.filter isEncodeOp) s = .next te ∧ runInstrs (l.filter isRxOp) s = .next tr ∧
      t.tx = te.tx ∧ t.dec = tr.dec ∧ t.events.filter isRxRecord = tr.events.filter isRxRecord

/-! ## Control, reset and the one fault -/

/-- R220 and R37, RESET (decisions D4, D11, D37): from any state, at any time, and the only operation,
port operation or formatter command, allowed before the first RESET. That a formatter command raises NotReset
there, before its own checks, is deduced (assumption log 9), and that RESET keeps the results and the pending
requests is the model's choice (assumption logs 5 and 4), so the basis is 'derived'. -/
def Obligations.ResetRule : Prop :=
  ∀ (arg : Byte) (s : State),
    decode (.port (0x000#11 ||| arg.setWidth 11) []) = .ok (.reset arg) ∧
    exec (.reset arg) s = .next { s with
      wasReset := true, crc := 0x00, ctrlDry := false
      dec := { dstate := .seekMark, dhi := 0, dlen := 0, dcnt := 0, dop := 0, dbuf := [], dcrc := 0x00 } } ∧
    runInstrs [.reset arg, .reset arg] s = exec (.reset arg) s ∧
    (s.wasReset = false → ∀ (w : BitVec 11) (p : List Byte) (i : Instr), decode (.port w p) = .ok i →
      (∃ a, i = .reset a) ∨ exec i s = .fault .notReset) ∧
    (s.wasReset = false → ∀ (i : Instr) (cmd : CmdName) (op : Byte), formatterOp i = some (cmd, op) →
      exec i s = .fault .notReset)

/-- At power-on no operation but RESET does anything but fault, so none can observe an unspecified element, and
RESET leads to the state this model calls `State.reset`, whatever those elements held (assumption logs 1 and 2).
That the operations that fault take in SEND_THERMAL_READING is the model's choice (log 7), that they take in the
formatter commands, also those that would be dropped, is deduced (log 9), and that RESET keeps the model's own
fields is the model's choice (logs 3, 4 and 5). -/
def Obligations.PowerOnThenReset : Prop :=
  ∀ (arg : Byte) (s : State), s.IsPowerOn →
    exec (.reset arg) s =
      .next { State.reset with results := s.results, port := s.port, params := s.params } ∧
    ∀ i : Instr, i.WellFormed = true → (∀ a, i ≠ .reset a) → exec i s = .fault .notReset

/-- R221, SET_DRY (decisions D2, D11): it writes DRY and nothing else, and dry mode affects neither the
decoder nor the CRC generator. -/
def Obligations.SetDryRule : Prop :=
  (∀ (arg : Byte) (s : State),
    decode (.port (0x100#11 ||| arg.setWidth 11) []) = .ok (.setDry arg) ∧
    (s.wasReset = true → exec (.setDry arg) s = .next { s with ctrlDry := arg.getLsbD 0 }) ∧
    (s.wasReset = false → exec (.setDry arg) s = .fault .notReset) ∧
    (s.wasReset = true → runInstrs [.setDry 1, .encode 0x0A []] s = .next { s with
      ctrlDry := true
      events := s.events ++ [.txDryFrame [0x24, 0x50, 0x3C, 0x00, 0x01, 0x0A, 0xCE]] })) ∧
  (∀ (i : Instr) (d : Bool) (s : State),
    (∃ b, i = .rxByte b) ∨ (∃ a, i = .crcClear a) ∨ (∃ b, i = .crcFeed b) ∨ (∃ a, i = .crcRead a) →
    exec i { s with ctrlDry := d } = mapNext (fun t => { t with ctrlDry := d }) (exec i s))

/-- R222, R25 and the codes of R26, READ_STATUS (decisions D38, D40): every field of STATUS, with no side
effect. The list that holds the results returned is the model's own (assumption log 5). -/
def Obligations.ReadStatusRule : Prop :=
  [DState.seekMark, .seekP, .seekD, .lenHi, .lenLo, .bodyOp, .payload, .rxCrc].map DState.code =
    [0, 1, 2, 3, 4, 5, 6, 7] ∧
  ∀ (arg : Byte) (s : State),
    decode (.port (0x700#11 ||| arg.setWidth 11) []) = .ok (.readStatus arg) ∧
    (s.wasReset = false → exec (.readStatus arg) s = .fault .notReset) ∧
    (s.wasReset = true → ∃ v : Byte, exec (.readStatus arg) s = .next { s with results := s.results ++ [v] } ∧
      v.extractLsb' 0 3 = DState.code s.dec.dstate ∧ v.getLsbD 3 = s.ctrlDry ∧
      v.getLsbD 4 = s.params.verifyCrc ∧ v.getLsbD 5 = s.params.rescanOnAbort ∧ v.extractLsb' 6 2 = 0)

/-- R240 (decision D4): before the first RESET every other port operation raises NotReset, and nothing else
is ever a fault. -/
def Obligations.NotResetIsTheOneFault : Prop :=
  (∀ s : State, s.wasReset = false →
    (∀ a, exec (.setDry a) s = .fault .notReset) ∧ (∀ a, exec (.crcClear a) s = .fault .notReset) ∧
    (∀ d, exec (.crcFeed d) s = .fault .notReset) ∧ (∀ a, exec (.crcRead a) s = .fault .notReset) ∧
    (∀ op p, exec (.encode op p) s = .fault .notReset) ∧ (∀ b, exec (.rxByte b) s = .fault .notReset) ∧
    (∀ a, exec (.readStatus a) s = .fault .notReset) ∧ ∀ a, ∃ t, exec (.reset a) s = .next t) ∧
  ∀ (i : Instr) (s : State) (f : Fault), exec i s = .fault f → f = .notReset ∧ s.wasReset = false

/-- After RESET every well-formed operation completes, one or a whole run of them (60_exceptions.md §2, §4).
SEND_THERMAL_READING as an operation is the model's choice (assumption log 7). -/
def Obligations.AfterResetEverythingCompletes : Prop :=
  (∀ (i : Instr) (s : State), i.WellFormed = true → s.wasReset = true →
    ∃ t, exec i s = .next t ∧ t.wasReset = true) ∧
  ∀ (l : List Instr) (s : State), (∀ i ∈ l, i.WellFormed = true) → s.wasReset = true →
    ∃ t, runInstrs l s = .next t ∧ t.wasReset = true

/-! ## The formatter -/

/-- R146, `set_servo_open_close` (decisions D24, D29). -/
def Obligations.ServoOpenCloseRule : Prop :=
  ∀ (servo : Int) (action : String) (s : State), s.wasReset = true →
    (¬ IsByte servo → exec (.setServoOpenClose servo action) s = .next (dropped .setServoOpenClose .argRange s)) ∧
    (IsByte servo → action = "open" →
      exec (.setServoOpenClose servo action) s = .next (sent 0x00 [BitVec.ofInt 8 servo, 0x96] s)) ∧
    (IsByte servo → action = "close" →
      exec (.setServoOpenClose servo action) s = .next (sent 0x00 [BitVec.ofInt 8 servo, 0x64] s)) ∧
    (IsByte servo → action ≠ "open" → action ≠ "close" →
      exec (.setServoOpenClose servo action) s = .next (dropped .setServoOpenClose .badAction s))

/-- R147 and R148, `set_servo_min` and `set_servo_max` (decisions D24, D25). -/
def Obligations.ServoMinMaxRule : Prop :=
  ServoPulseRule .setServoMin .setServoMin 0x01 ∧ ServoPulseRule .setServoMax .setServoMax 0x02

/-- R143, `pulse_bytes` (decision D25): the truncated value, packed by each encoding. -/
def Obligations.PulsePacking : Prop :=
  ∀ v : Rat, 0 < v → v < 1000 → ∃ n : Nat, (n : Rat) ≤ v ∧ v < (n : Rat) + 1 ∧ n ≤ 999 ∧
    pulseBytes .u16be v = .ok [BitVec.ofNat 8 (n / 256), BitVec.ofNat 8 (n % 256)] ∧
    pulseBytes .u16le v = .ok [BitVec.ofNat 8 (n % 256), BitVec.ofNat 8 (n / 256)] ∧
    pulseBytes .u8 v = if 255 < n then .error .pulseExceedsByte else .ok [BitVec.ofNat 8 n]

/-- R149, `set_servo_pct` (decisions D24, D41); `n` is the percent truncated. -/
def Obligations.ServoPctRule : Prop :=
  ∀ (servo : Int) (s : State), s.wasReset = true →
    (¬ IsByte servo → ∀ x, exec (.setServoPct servo x) s = .next (dropped .setServoPct .argRange s)) ∧
    (IsByte servo → exec (.setServoPct servo .notNum) s = .next (dropped .setServoPct .notNumeric s)) ∧
    (IsByte servo → ∀ v : Rat, ¬ (0 < v ∧ v < 100) →
      exec (.setServoPct servo (.rational v)) s = .next (dropped .setServoPct .outOfRange s)) ∧
    (IsByte servo → ∀ (v : Rat) (n : Nat), 0 < v → v < 100 → (n : Rat) ≤ v → v < (n : Rat) + 1 →
      n ≤ 99 ∧
      exec (.setServoPct servo (.rational v)) s = .next (sent 0x03 [BitVec.ofInt 8 servo, BitVec.ofNat 8 n] s))

/-- R150 with R144, `set_base_color`: four good elements are sent in their order, anything else is four
zeros, and the command is never dropped. -/
def Obligations.BaseColorRule : Prop :=
  ∀ s : State, s.wasReset = true →
    (∀ w r g b : Byte, exec (.setBaseColor (colorArray w r g b)) s = .next (sent 0x04 [w, r, g, b] s)) ∧
    (∀ a : List Elem, (¬ ∃ w r g b : Byte, a = colorArray w r g b) →
      exec (.setBaseColor a) s = .next (sent 0x04 [0, 0, 0, 0] s))

/-- R151 with R144 and R145, `set_temp_color` (decision D27): the colour bytes, then the duration's pattern
in little-endian order, 0.5 when absent. -/
def Obligations.TempColorRule : Prop :=
  ∀ (s : State) (t : BitVec 32), s.wasReset = true →
    (∀ w r g b : Byte,
      exec (.setTempColor (colorArray w r g b) none) s = .next (sent 0x05 [w, r, g, b, 0, 0, 0, 0x3F] s) ∧
      exec (.setTempColor (colorArray w r g b) (some t)) s = .next (sent 0x05
        [w, r, g, b, BitVec.ofNat 8 t.toNat, BitVec.ofNat 8 (t.toNat / 2 ^ 8), BitVec.ofNat 8 (t.toNat / 2 ^ 16),
          BitVec.ofNat 8 (t.toNat / 2 ^ 24)] s)) ∧
    (∀ a : List Elem, (¬ ∃ w r g b : Byte, a = colorArray w r g b) →
      exec (.setTempColor a none) s = .next (sent 0x05 [0, 0, 0, 0, 0, 0, 0, 0x3F] s) ∧
      exec (.setTempColor a (some t)) s = .next (sent 0x05
        [0, 0, 0, 0, BitVec.ofNat 8 t.toNat, BitVec.ofNat 8 (t.toNat / 2 ^ 8), BitVec.ofNat 8 (t.toNat / 2 ^ 16),
          BitVec.ofNat 8 (t.toNat / 2 ^ 24)] s))

/-- R152 and R153, `set_pixel_cycle` and `set_trigger_switch` (decision D24): reversed order. -/
def Obligations.ReversedPairRules : Prop :=
  ReversedPairRule .setPixelCycle .setPixelCycle 0x06 ∧ ReversedPairRule .setTriggerSwitch .setTriggerSwitch 0x07

/-- R154 and R155, `set_switch_on` and `set_switch_off` (decisions D24, D26). -/
def Obligations.SwitchRules : Prop :=
  SwitchRule .setSwitchOn .setSwitchOn 0x08 ∧ SwitchRule .setSwitchOff .setSwitchOff 0x09

/-- R156 to R160, the commands without operands (decisions D26, D32), with the frames the rules print. -/
def Obligations.OpcodeOnlyRules : Prop :=
  OpcodeOnlyRule .setLaserOn [0x24, 0x50, 0x3C, 0x00, 0x01, 0x0A, 0xCE] ∧
  OpcodeOnlyRule .setLaserOff [0x24, 0x50, 0x3C, 0x00, 0x01, 0x0B, 0x1B] ∧
  OpcodeOnlyRule .requestThermalReading [0x24, 0x50, 0x3C, 0x00, 0x01, 0x0C, 0x4F] ∧
  OpcodeOnlyRule .resetVrcPeriph [0x24, 0x50, 0x3C, 0x00, 0x01, 0x0D, 0x9A] ∧
  OpcodeOnlyRule .checkServoController [0x24, 0x50, 0x3C, 0x00, 0x01, 0x0E, 0x30]

/-- A formatter command has exactly one of two outcomes: one frame of its opcode, or one `CmdDropped` with a
reason its rule names. -/
def Obligations.FormatterHasTwoOutcomes : Prop :=
  ∀ (i : Instr) (cmd : CmdName) (op : Byte) (s : State), formatterOp i = some (cmd, op) → s.wasReset = true →
    ((∃ p, p.length ≤ 8 ∧ exec i s = .next (sent op p s)) ∧ ∀ r, exec i s ≠ .next (dropped cmd r s)) ∨
    ((∃ r, mayDrop cmd r = true ∧ exec i s = .next (dropped cmd r s)) ∧ ∀ p, exec i s ≠ .next (sent op p s))

/-- Before the first RESET every formatter command raises NotReset, also one whose arguments would drop it, and
a run ends there; after a RESET it completes. That NotReset comes before the command's own checks is deduced
(assumption log 9). -/
def Obligations.FormatterBeforeReset : Prop :=
  ∀ (i : Instr) (cmd : CmdName) (op : Byte) (s : State), formatterOp i = some (cmd, op) → s.wasReset = false →
    exec i s = .fault .notReset ∧ (∀ is, runInstrs (i :: is) s = .fault .notReset) ∧
    ∀ a, ∃ t, runInstrs [.reset a, i] s = .next t

/-- Frame opcode 0x0F in its two directions, which is the model's choice (assumption log 7): outbound it is
the raw ENCODE, inbound the arrival of the device's frame; from SEEK_MARK, 64 samples give the frame and its
reading. -/
def Obligations.SendThermalReadingRule : Prop :=
  ∀ (p : List Byte) (s : State),
    exec (.sendThermalReading .hostToDevice p) s = exec (.encode 0x0F p) s ∧
    (p.length ≤ 65534 →
      exec (.sendThermalReading .deviceToHost p) s = runInstrs (pollOps (buildFrame 0x3E 0x0F p)) s) ∧
    (65534 < p.length → exec (.sendThermalReading .deviceToHost p) s = .refused .noSuchFrame) ∧
    (p.length = 64 → 65 ≤ s.params.rxMaxLen → s.wasReset = true → s.dec.dstate = .seekMark →
      exec (.sendThermalReading .deviceToHost p) s = .next { s with
        dec := Decoder.idle
        events := s.events ++ [.rxFrame 0x0F p true, .rxReading (matrix p)] })

/-! ## The whole machine -/

/-- R32: `tx` is only appended to, never read and never cleared: with anything before it, every operation
answers the same, keeps what was there and puts its bytes after. The same holds of the records. -/
def Obligations.StreamsAreAppendOnly : Prop :=
  ∀ (i : Instr) (s : State) (tx : List Byte) (ev : List Event),
    exec i { s with tx := tx ++ s.tx, events := ev ++ s.events } =
      mapNext (fun t => { t with tx := tx ++ t.tx, events := ev ++ t.events }) (exec i s)

/-- What each operation may write: the frame of every operation at once. The pending requests, the results,
the place of the parameters and SEND_THERMAL_READING as an operation are the model's own (assumption logs 3,
4, 5 and 7). -/
def Obligations.OperationFrames : Prop :=
  ∀ (i : Instr) (s t : State), exec i s = .next t →
    t.params = s.params ∧ t.port = s.port ∧
    (t.wasReset ≠ s.wasReset → (∃ a, i = .reset a) ∧ t.wasReset = true) ∧
    (t.crc ≠ s.crc → (∃ a, i = .reset a) ∨ (∃ a, i = .crcClear a) ∨ ∃ d, i = .crcFeed d) ∧
    (t.ctrlDry ≠ s.ctrlDry → (∃ a, i = .reset a) ∨ ∃ a, i = .setDry a) ∧
    (t.dec ≠ s.dec → (∃ a, i = .reset a) ∨ (∃ b, i = .rxByte b) ∨ ∃ p, i = .sendThermalReading .deviceToHost p) ∧
    (t.results ≠ s.results → (∃ a, i = .crcRead a) ∨ ∃ a, i = .readStatus a) ∧
    (t.tx ≠ s.tx →
      isEncodeOp i = true ∨ (formatterOp i).isSome = true ∨ ∃ p, i = .sendThermalReading .hostToDevice p) ∧
    (t.events ≠ s.events →
      isEncodeOp i = true ∨ isRxOp i = true ∨ (formatterOp i).isSome = true ∨
        ∃ d p, i = .sendThermalReading d p)

/-- The decoder's invariant is kept by every step, from every state that meets it. The step's pending requests
are the model's own (assumption log 4). -/
def Obligations.StepKeepsDecoderInv : Prop :=
  ∀ s t : State, DecoderInv s → step s = .next t → DecoderInv t

/-- The output streams' invariant is kept by every step: every record is one its rule can produce, a reading,
or the discard of its wrong length, stands right after the record of its frame (R190, R191, R193), and `tx` is a
sequence of whole host frames. The step's pending requests are the model's own (assumption log 4). -/
def Obligations.StepKeepsStreamInv : Prop :=
  ∀ s t : State, StreamInv s → step s = .next t → StreamInv t

/-- Both invariants hold right after reset, in the state of assumption log 1. The values of the decided
parameters are R8's; those of the open ones do not matter. -/
def Obligations.ResetMeetsInvariants : Prop :=
  DecoderInv State.reset ∧ StreamInv State.reset

/-! ## The records' codes and causes -/

/-- The code column of R242, and R243: every record's code, none for the results, and no other code in use
(decision D22). -/
def Obligations.EventCodes : Prop :=
  (∀ b : Byte,
    (Event.rxDiscard .badMark b).code = some 0x01 ∧ (Event.rxDiscard .badDir b).code = some 0x02 ∧
    (Event.rxDiscard .badLen b).code = some 0x03 ∧ (Event.rxDiscard .lenTooLong b).code = some 0x04 ∧
    (Event.rxDiscard .badOpcode b).code = some 0x05 ∧ (Event.rxDiscard .badCrc b).code = some 0x06 ∧
    (Event.rxDiscard .badReadingLen b).code = some 0x07) ∧
  (∀ (op : Byte) (n : Nat),
    (Event.txError .badOpcode op n).code = some 0x10 ∧ (Event.txError .lenOverflow op n).code = some 0x11) ∧
  (∀ cmd r, (Event.cmdDropped cmd r).code = some 0x20) ∧
  (∀ op p ok, (Event.rxFrame op p ok).code = none) ∧ (∀ m, (Event.rxReading m).code = none) ∧
  (∀ f, (Event.txDryFrame f).code = none) ∧
  ∀ (e : Event) (c : Byte), e.code = some c →
    c ∈ [0x01#8, 0x02#8, 0x03#8, 0x04#8, 0x05#8, 0x06#8, 0x07#8, 0x10#8, 0x11#8, 0x20#8]

/-- The other columns of R242: which operation emits which record, in which decoder state, for which cause and
with which information. -/
def Obligations.EventCauses : Prop :=
  (∀ (b : Byte) (s t : State), exec (.rxByte b) s = .next t →
    ∃ es, t.events = s.events ++ es ∧ ∀ e ∈ es, RxCause b s e) ∧
  (∀ (op : Byte) (p : List Byte) (s t : State), exec (.encode op p) s = .next t →
    ∃ es, t.events = s.events ++ es ∧ ∀ e ∈ es, EncodeCause op p s e) ∧
  (∀ (i : Instr) (cmd : CmdName) (op : Byte) (s t : State), formatterOp i = some (cmd, op) → exec i s = .next t →
    ∃ es, t.events = s.events ++ es ∧ ∀ e ∈ es,
      (∃ r, mayDrop cmd r = true ∧ e = .cmdDropped cmd r) ∨
      (s.ctrlDry = true ∧ ∃ p, e = .txDryFrame (buildFrame 0x3C op p))) ∧
  ∀ (i : Instr) (s t : State), exec i s = .next t → isEncodeOp i = false → isRxOp i = false →
    (formatterOp i).isSome = false → (∀ d p, i ≠ .sendThermalReading d p) → t.events = s.events
end

