-- ==== Sys2Proof/Laws/State.lean ====
section
/-! SUPPORT. One lemma per field per update of the state. -/

namespace Sys2Proof.Machine

variable (s : State)

@[simp] theorem State.txWrite_wasReset (bs : List Byte) : (s.txWrite bs).wasReset = s.wasReset := rfl
@[simp] theorem State.txWrite_crc (bs : List Byte) : (s.txWrite bs).crc = s.crc := rfl
@[simp] theorem State.txWrite_ctrlDry (bs : List Byte) : (s.txWrite bs).ctrlDry = s.ctrlDry := rfl
@[simp] theorem State.txWrite_dec (bs : List Byte) : (s.txWrite bs).dec = s.dec := rfl
@[simp] theorem State.txWrite_tx (bs : List Byte) : (s.txWrite bs).tx = s.tx ++ bs := rfl
@[simp] theorem State.txWrite_events (bs : List Byte) : (s.txWrite bs).events = s.events := rfl
@[simp] theorem State.txWrite_results (bs : List Byte) : (s.txWrite bs).results = s.results := rfl
@[simp] theorem State.txWrite_port (bs : List Byte) : (s.txWrite bs).port = s.port := rfl
@[simp] theorem State.txWrite_params (bs : List Byte) : (s.txWrite bs).params = s.params := rfl

@[simp] theorem State.emit_wasReset (es : List Event) : (s.emit es).wasReset = s.wasReset := rfl
@[simp] theorem State.emit_crc (es : List Event) : (s.emit es).crc = s.crc := rfl
@[simp] theorem State.emit_ctrlDry (es : List Event) : (s.emit es).ctrlDry = s.ctrlDry := rfl
@[simp] theorem State.emit_dec (es : List Event) : (s.emit es).dec = s.dec := rfl
@[simp] theorem State.emit_tx (es : List Event) : (s.emit es).tx = s.tx := rfl
@[simp] theorem State.emit_events (es : List Event) : (s.emit es).events = s.events ++ es := rfl
@[simp] theorem State.emit_results (es : List Event) : (s.emit es).results = s.results := rfl
@[simp] theorem State.emit_port (es : List Event) : (s.emit es).port = s.port := rfl
@[simp] theorem State.emit_params (es : List Event) : (s.emit es).params = s.params := rfl

@[simp] theorem State.putResult_wasReset (v : Byte) : (s.putResult v).wasReset = s.wasReset := rfl
@[simp] theorem State.putResult_crc (v : Byte) : (s.putResult v).crc = s.crc := rfl
@[simp] theorem State.putResult_ctrlDry (v : Byte) : (s.putResult v).ctrlDry = s.ctrlDry := rfl
@[simp] theorem State.putResult_dec (v : Byte) : (s.putResult v).dec = s.dec := rfl
@[simp] theorem State.putResult_tx (v : Byte) : (s.putResult v).tx = s.tx := rfl
@[simp] theorem State.putResult_events (v : Byte) : (s.putResult v).events = s.events := rfl
@[simp] theorem State.putResult_results (v : Byte) : (s.putResult v).results = s.results ++ [v] := rfl
@[simp] theorem State.putResult_port (v : Byte) : (s.putResult v).port = s.port := rfl
@[simp] theorem State.putResult_params (v : Byte) : (s.putResult v).params = s.params := rfl

@[simp] theorem State.setCrc_wasReset (c : Byte) : (s.setCrc c).wasReset = s.wasReset := rfl
@[simp] theorem State.setCrc_crc (c : Byte) : (s.setCrc c).crc = c := rfl
@[simp] theorem State.setCrc_ctrlDry (c : Byte) : (s.setCrc c).ctrlDry = s.ctrlDry := rfl
@[simp] theorem State.setCrc_dec (c : Byte) : (s.setCrc c).dec = s.dec := rfl
@[simp] theorem State.setCrc_tx (c : Byte) : (s.setCrc c).tx = s.tx := rfl
@[simp] theorem State.setCrc_events (c : Byte) : (s.setCrc c).events = s.events := rfl
@[simp] theorem State.setCrc_results (c : Byte) : (s.setCrc c).results = s.results := rfl
@[simp] theorem State.setCrc_port (c : Byte) : (s.setCrc c).port = s.port := rfl
@[simp] theorem State.setCrc_params (c : Byte) : (s.setCrc c).params = s.params := rfl

@[simp] theorem State.setDry_wasReset (d : Bool) : (s.setDry d).wasReset = s.wasReset := rfl
@[simp] theorem State.setDry_crc (d : Bool) : (s.setDry d).crc = s.crc := rfl
@[simp] theorem State.setDry_ctrlDry (d : Bool) : (s.setDry d).ctrlDry = d := rfl
@[simp] theorem State.setDry_dec (d : Bool) : (s.setDry d).dec = s.dec := rfl
@[simp] theorem State.setDry_tx (d : Bool) : (s.setDry d).tx = s.tx := rfl
@[simp] theorem State.setDry_events (d : Bool) : (s.setDry d).events = s.events := rfl
@[simp] theorem State.setDry_results (d : Bool) : (s.setDry d).results = s.results := rfl
@[simp] theorem State.setDry_port (d : Bool) : (s.setDry d).port = s.port := rfl
@[simp] theorem State.setDry_params (d : Bool) : (s.setDry d).params = s.params := rfl

@[simp] theorem State.setDec_wasReset (d : Decoder) : (s.setDec d).wasReset = s.wasReset := rfl
@[simp] theorem State.setDec_crc (d : Decoder) : (s.setDec d).crc = s.crc := rfl
@[simp] theorem State.setDec_ctrlDry (d : Decoder) : (s.setDec d).ctrlDry = s.ctrlDry := rfl
@[simp] theorem State.setDec_dec (d : Decoder) : (s.setDec d).dec = d := rfl
@[simp] theorem State.setDec_tx (d : Decoder) : (s.setDec d).tx = s.tx := rfl
@[simp] theorem State.setDec_events (d : Decoder) : (s.setDec d).events = s.events := rfl
@[simp] theorem State.setDec_results (d : Decoder) : (s.setDec d).results = s.results := rfl
@[simp] theorem State.setDec_port (d : Decoder) : (s.setDec d).port = s.port := rfl
@[simp] theorem State.setDec_params (d : Decoder) : (s.setDec d).params = s.params := rfl

@[simp] theorem State.doReset_wasReset : (s.doReset).wasReset = true := rfl
@[simp] theorem State.doReset_crc : (s.doReset).crc = 0 := rfl
@[simp] theorem State.doReset_ctrlDry : (s.doReset).ctrlDry = false := rfl
@[simp] theorem State.doReset_dec : (s.doReset).dec = Decoder.idle := rfl
@[simp] theorem State.doReset_tx : (s.doReset).tx = s.tx := rfl
@[simp] theorem State.doReset_events : (s.doReset).events = s.events := rfl
@[simp] theorem State.doReset_results : (s.doReset).results = s.results := rfl
@[simp] theorem State.doReset_port : (s.doReset).port = s.port := rfl
@[simp] theorem State.doReset_params : (s.doReset).params = s.params := rfl

end Sys2Proof.Machine
end

