-- ==== Sys2Proof/Laws/Ops.lean ====
section
/-! SUPPORT. What each shared operation can do, said once. -/

namespace Sys2Proof.Machine

/-! ### The CRC function -/

/-- A constant XORed into both sides cancels. -/
theorem xor_xor_cancel (a b k : Byte) : (a ^^^ k) ^^^ (b ^^^ k) = a ^^^ b := by
  rw [BitVec.xor_comm b k, ← BitVec.xor_assoc, BitVec.xor_assoc a k k, BitVec.xor_self, BitVec.xor_zero]

theorem crcRound_eq (r : Byte) : crcRound r = (r <<< 1) ^^^ (if r.getLsbD 7 then 0xD5#8 else 0#8) := by
  unfold crcRound; split <;> simp

/-- One round of CRC is linear. -/
theorem crcRound_xor (a b : Byte) : crcRound (a ^^^ b) = crcRound a ^^^ crcRound b := by
  rw [crcRound_eq, crcRound_eq, crcRound_eq, BitVec.shiftLeft_xor_distrib, BitVec.getLsbD_xor]
  cases a.getLsbD 7 <;> cases b.getLsbD 7
  · simp
  · simp [BitVec.xor_assoc]
  · simp [BitVec.xor_assoc, BitVec.xor_comm (b <<< 1)]
  · simpa using (xor_xor_cancel (a <<< 1) (b <<< 1) 0xD5#8).symm

theorem crcRounds_xor (n : Nat) (a b : Byte) : crcRounds n (a ^^^ b) = crcRounds n a ^^^ crcRounds n b := by
  induction n generalizing a b with
  | zero => rfl
  | succ n ih => simp [crcRounds, crcRound_xor, ih]

theorem crcRounds_zero (n : Nat) : crcRounds n 0 = 0 := by
  induction n with
  | zero => rfl
  | succ n ih => simpa [crcRounds, crcRound] using ih

/-- A step depends on the XOR of the register and the byte only. -/
theorem crcStep_eq_zero_xor (c b : Byte) : crcStep c b = crcStep 0 (c ^^^ b) := by
  simp [crcStep]

/-! ### The NotReset check and the formatter -/

theorem portOp_of_reset {f : State → State} {s : State} (h : s.wasReset = true) : portOp f s = .next (f s) := by
  simp [portOp, h]

theorem portOp_of_not_reset {f : State → State} {s : State} (h : s.wasReset = false) :
    portOp f s = .fault .notReset := by
  simp [portOp, h]

/-- A port operation that completes had been allowed, and left its effect. -/
theorem portOp_eq_next {f : State → State} {s t : State} (h : portOp f s = .next t) :
    s.wasReset = true ∧ t = f s := by
  unfold portOp at h
  split at h
  · cases h; exact ⟨‹_›, rfl⟩
  · cases h

/-- A port operation that faults had not been allowed. -/
theorem portOp_eq_fault {f : State → State} {s : State} {x : Fault} (h : portOp f s = .fault x) :
    s.wasReset = false ∧ x = .notReset := by
  unfold portOp at h
  split at h
  · cases h
  · cases h; exact ⟨by simp_all, rfl⟩

theorem portOp_ne_refused {f : State → State} {s : State} {r : Refusal} : portOp f s ≠ .refused r := by
  unfold portOp; split <;> simp

@[simp] theorem commandEffect_ok (cmd : CmdName) (op : Byte) (p : List Byte) :
    commandEffect cmd op (.ok p) = encodeEffect op p := rfl

@[simp] theorem commandEffect_error (cmd : CmdName) (op : Byte) (r : DropReason) (s : State) :
    commandEffect cmd op (.error r) s = s.emit [.cmdDropped cmd r] := rfl

theorem issue_of_reset {cmd : CmdName} {op : Byte} {p : Except DropReason (List Byte)} {s : State}
    (h : s.wasReset = true) : issue cmd op p s = .next (commandEffect cmd op p s) := portOp_of_reset h

theorem issue_of_not_reset {cmd : CmdName} {op : Byte} {p : Except DropReason (List Byte)} {s : State}
    (h : s.wasReset = false) : issue cmd op p s = .fault .notReset := portOp_of_not_reset h

/-! ### Frames and ENCODE -/

@[simp] theorem length_frameBody (dir op : Byte) (p : List Byte) : (frameBody dir op p).length = p.length + 6 := by
  simp [frameBody]

/-- ENCODE's effect is one of four. -/
theorem encodeEffect_cases (op : Byte) (p : List Byte) (s : State) :
    (15 < op.toNat ∧ encodeEffect op p s = s.emit [.txError .badOpcode op p.length]) ∨
    (op.toNat ≤ 15 ∧ 65534 < p.length ∧ encodeEffect op p s = s.emit [.txError .lenOverflow op p.length]) ∨
    (op.toNat ≤ 15 ∧ p.length ≤ 65534 ∧ s.ctrlDry = true ∧
      encodeEffect op p s = s.emit [.txDryFrame (buildFrame 0x3C op p)]) ∨
    (op.toNat ≤ 15 ∧ p.length ≤ 65534 ∧ s.ctrlDry = false ∧
      encodeEffect op p s = s.txWrite (buildFrame 0x3C op p)) := by
  unfold encodeEffect
  by_cases h1 : 15 < op.toNat
  · simp [h1]
  by_cases h2 : 65534 < p.length
  · simp [h1, h2, Nat.not_lt.mp h1]
  · cases h3 : s.ctrlDry <;> simp [h1, h2, Nat.not_lt.mp h1, Nat.not_lt.mp h2]

/-! ### The decoder -/

/-- An abort leaves the cleared decoder, or SEEK_P when the byte is 0x24 and is looked at once more. -/
theorem abort_eq (P : Params) (code : RxCode) (b : Byte) :
    abort P code b =
      (if P.rescanOnAbort = true ∧ b = 0x24 then { Decoder.idle with dstate := .seekP, dcrc := 0x5A }
        else Decoder.idle, [.rxDiscard code b]) := by
  have h5A : crcStep 0#8 36#8 = 90#8 := by decide
  by_cases hb : b = 0x24
  · subst hb; cases h : P.rescanOnAbort <;> simp [abort, seekMarkArm, h, h5A]
  · simp only [abort, seekMarkArm, hb, if_false, and_false, ite_self]

theorem rxEffect_eq (b : Byte) (s : State) :
    rxEffect b s = { s with
      dec := (decoderStep s.params s.dec b).1
      events := s.events ++ (decoderStep s.params s.dec b).2 } := rfl

@[simp] theorem rxEffect_wasReset (b : Byte) (s : State) : (rxEffect b s).wasReset = s.wasReset := rfl
@[simp] theorem rxEffect_crc (b : Byte) (s : State) : (rxEffect b s).crc = s.crc := rfl
@[simp] theorem rxEffect_ctrlDry (b : Byte) (s : State) : (rxEffect b s).ctrlDry = s.ctrlDry := rfl
@[simp] theorem rxEffect_tx (b : Byte) (s : State) : (rxEffect b s).tx = s.tx := rfl
@[simp] theorem rxEffect_results (b : Byte) (s : State) : (rxEffect b s).results = s.results := rfl
@[simp] theorem rxEffect_port (b : Byte) (s : State) : (rxEffect b s).port = s.port := rfl
@[simp] theorem rxEffect_params (b : Byte) (s : State) : (rxEffect b s).params = s.params := rfl

@[simp] theorem rxAll_nil (s : State) : rxAll [] s = s := rfl

@[simp] theorem rxAll_cons (b : Byte) (bs : List Byte) (s : State) :
    rxAll (b :: bs) s = rxAll bs (rxEffect b s) := rfl

theorem rxAll_append (a b : List Byte) (s : State) : rxAll (a ++ b) s = rxAll b (rxAll a s) := by
  simp [rxAll]

/-- Feeding bytes writes the decoder and appends records, nothing else. -/
theorem rxAll_frame (bs : List Byte) (s : State) :
    ∃ (d : Decoder) (es : List Event), rxAll bs s = { s with dec := d, events := s.events ++ es } := by
  induction bs generalizing s with
  | nil => exact ⟨s.dec, [], by simp⟩
  | cons b bs ih =>
    obtain ⟨d, es, h⟩ := ih (rxEffect b s)
    refine ⟨d, (decoderStep s.params s.dec b).2 ++ es, ?_⟩
    rw [rxAll_cons, h, rxEffect_eq]; simp

/-! ### Operands -/

theorem byteArg_of_range {x : Int} (h : 0 ≤ x ∧ x ≤ 255) : byteArg x = .ok (BitVec.ofInt 8 x) := if_pos h

theorem byteArg_of_not_range {x : Int} (h : ¬ (0 ≤ x ∧ x ≤ 255)) : byteArg x = .error .argRange := if_neg h

/-- A colour array has four bytes, whatever it is. -/
theorem length_color4 (a : List Elem) : (color4 a).length = 4 := by
  unfold color4; split <;> rfl

end Sys2Proof.Machine
end

