-- ==== Sys2Proof/Laws/Exec.lean ====
section
/-! SUPPORT. Each operation as the shared operation it is: `portOp` of an effect, or `issue` of a payload. -/

namespace Sys2Proof.Machine

variable (s : State)

theorem exec_reset (a : Byte) : exec (.reset a) s = .next s.doReset := rfl
theorem exec_setDry (a : Byte) : exec (.setDry a) s = portOp (fun t => t.setDry (dryBit a)) s := rfl
theorem exec_crcClear (a : Byte) : exec (.crcClear a) s = portOp (fun t => t.setCrc 0) s := rfl
theorem exec_crcFeed (d : Byte) : exec (.crcFeed d) s = portOp (fun t => t.setCrc (crcStep t.crc d)) s := rfl
theorem exec_crcRead (a : Byte) : exec (.crcRead a) s = portOp (fun t => t.putResult t.crc) s := rfl
theorem exec_encode (op : Byte) (p : List Byte) : exec (.encode op p) s = portOp (encodeEffect op p) s := rfl
theorem exec_rxByte (b : Byte) : exec (.rxByte b) s = portOp (rxEffect b) s := rfl
theorem exec_readStatus (a : Byte) : exec (.readStatus a) s = portOp (fun t => t.putResult (statusByte t)) s := rfl

theorem exec_setServoOpenClose (n : Int) (a : String) :
    exec (.setServoOpenClose n a) s = issue .setServoOpenClose 0x00 (servoOpenClosePayload n a) s := rfl
theorem exec_setServoMin (n : Int) (v : NumVal) :
    exec (.setServoMin n v) s = issue .setServoMin 0x01 (servoPulsePayload s.params.pulseEncoding n v) s := rfl
theorem exec_setServoMax (n : Int) (v : NumVal) :
    exec (.setServoMax n v) s = issue .setServoMax 0x02 (servoPulsePayload s.params.pulseEncoding n v) s := rfl
theorem exec_setServoPct (n : Int) (v : NumVal) :
    exec (.setServoPct n v) s = issue .setServoPct 0x03 (servoPctPayload n v) s := rfl
theorem exec_setBaseColor (a : List Elem) :
    exec (.setBaseColor a) s = issue .setBaseColor 0x04 (.ok (color4 a)) s := rfl
theorem exec_setTempColor (a : List Elem) (t : Option (BitVec 32)) :
    exec (.setTempColor a t) s = issue .setTempColor 0x05 (.ok (color4 a ++ durationBytes t)) s := rfl
theorem exec_setPixelCycle (m n : Int) :
    exec (.setPixelCycle m n) s = issue .setPixelCycle 0x06 (reversedPairPayload m n) s := rfl
theorem exec_setTriggerSwitch (m n : Int) :
    exec (.setTriggerSwitch m n) s = issue .setTriggerSwitch 0x07 (reversedPairPayload m n) s := rfl
theorem exec_setSwitchOn (n : Int) : exec (.setSwitchOn n) s = issue .setSwitchOn 0x08 (indexPayload n) s := rfl
theorem exec_setSwitchOff (n : Int) : exec (.setSwitchOff n) s = issue .setSwitchOff 0x09 (indexPayload n) s := rfl
theorem exec_setLaserOn : exec .setLaserOn s = issue .setLaserOn 0x0A (.ok []) s := rfl
theorem exec_setLaserOff : exec .setLaserOff s = issue .setLaserOff 0x0B (.ok []) s := rfl
theorem exec_requestThermalReading :
    exec .requestThermalReading s = issue .requestThermalReading 0x0C (.ok []) s := rfl
theorem exec_resetVrcPeriph : exec .resetVrcPeriph s = issue .resetVrcPeriph 0x0D (.ok []) s := rfl
theorem exec_checkServoController :
    exec .checkServoController s = issue .checkServoController 0x0E (.ok []) s := rfl

theorem exec_sendThermalReading_out (p : List Byte) :
    exec (.sendThermalReading .hostToDevice p) s = portOp (encodeEffect 0x0F p) s := rfl

theorem exec_sendThermalReading_in {p : List Byte} (h : p.length ≤ 65534) :
    exec (.sendThermalReading .deviceToHost p) s = portOp (rxAll (buildFrame 0x3E 0x0F p)) s := by
  simp [exec, execSendThermalReading, Nat.not_lt.mpr h]

theorem exec_sendThermalReading_none {p : List Byte} (h : 65534 < p.length) :
    exec (.sendThermalReading .deviceToHost p) s = .refused .noSuchFrame := by
  simp [exec, execSendThermalReading, h]

end Sys2Proof.Machine
end

