-- ==== Sys2Proof/Laws/Runs.lean ====
section
/-! SUPPORT. Runs of operations, and of polled bytes. -/

namespace Sys2Proof.Safety

open Sys2Proof Sys2Proof.Machine

@[simp] theorem runInstrs_nil (s : State) : runInstrs [] s = .next s := rfl

theorem runInstrs_cons_of_next {i : Instr} {s t : State} (h : exec i s = .next t) (is : List Instr) :
    runInstrs (i :: is) s = runInstrs is t := by
  simp [runInstrs, h]

theorem runInstrs_append_of_next {a : List Instr} {s t : State} (h : runInstrs a s = .next t) (b : List Instr) :
    runInstrs (a ++ b) s = runInstrs b t := by
  induction a generalizing s with
  | nil => cases h; rfl
  | cons i is ih =>
    simp only [List.cons_append, runInstrs] at h ⊢
    split at h
    · exact ih h
    · cases h
    · cases h

theorem exec_rxByte_of_reset {s : State} (h : s.wasReset = true) (b : Byte) :
    exec (.rxByte b) s = .next (rxEffect b s) := by
  rw [exec_rxByte, portOp_of_reset h]

/-- A poll after RESET is the effect of its bytes. -/
theorem runInstrs_poll {s : State} (h : s.wasReset = true) (bs : List Byte) :
    runInstrs (pollOps bs) s = .next (rxAll bs s) := by
  induction bs generalizing s with
  | nil => rfl
  | cons b bs ih =>
    rw [pollOps, List.map_cons, runInstrs_cons_of_next (exec_rxByte_of_reset h b)]
    exact ih (s := rxEffect b s) h

end Sys2Proof.Safety
end

