-- ==== Sys2Proof/Laws/Inversion.lean ====
section
/-! SUPPORT. Everything an operation that completes can have done, said once: later proofs go by these cases
and unfold no meaning. -/

namespace Sys2Proof.Safety

open Sys2Proof Sys2Proof.Machine

/-! ### Payloads -/

theorem servoOpenClosePayload_ok {n : Int} {a : String} {p : List Byte} (h : servoOpenClosePayload n a = .ok p) :
    p.length ≤ 8 := by
  unfold servoOpenClosePayload byteArg at h
  split at h
  · simp only [bind, Except.bind] at h
    split at h
    · cases h; simp
    · split at h <;> cases h; simp
  · cases h

theorem servoOpenClosePayload_error {n : Int} {a : String} {r : DropReason}
    (h : servoOpenClosePayload n a = .error r) : r = .argRange ∨ r = .badAction := by
  unfold servoOpenClosePayload byteArg at h
  split at h
  · simp only [bind, Except.bind] at h
    split at h
    · cases h
    · split at h <;> cases h; simp
  · cases h; simp

theorem pulseBytes_ok {e : PulseEncoding} {v : Rat} {p : List Byte} (h : pulseBytes e v = .ok p) :
    p.length ≤ 2 := by
  unfold pulseBytes at h
  cases e
  · dsimp only at h; split at h <;> cases h; simp
  · cases h; simp
  · cases h; simp

theorem servoPulsePayload_ok {e : PulseEncoding} {n : Int} {x : NumVal} {p : List Byte}
    (h : servoPulsePayload e n x = .ok p) : p.length ≤ 8 := by
  unfold servoPulsePayload byteArg at h
  split at h
  · simp only [bind, Except.bind] at h
    cases hx : rangeArg 1000 x with
    | error r => rw [hx] at h; cases h
    | ok v =>
      rw [hx] at h
      dsimp only at h
      cases hp : pulseBytes e v with
      | error r => rw [hp] at h; cases h
      | ok q =>
        rw [hp] at h
        have := pulseBytes_ok hp
        cases h
        simp; omega
  · cases h

theorem rangeArg_error {b : Rat} {x : NumVal} {r : DropReason} (h : rangeArg b x = .error r) :
    r = .notNumeric ∨ r = .outOfRange := by
  unfold rangeArg at h
  split at h
  · cases h; simp
  · split at h <;> cases h; simp

theorem servoPulsePayload_error {e : PulseEncoding} {n : Int} {x : NumVal} {r : DropReason}
    (h : servoPulsePayload e n x = .error r) : r ≠ .badAction := by
  unfold servoPulsePayload byteArg at h
  split at h
  · simp only [bind, Except.bind] at h
    cases hx : rangeArg 1000 x with
    | error q =>
      rw [hx] at h
      cases h
      rcases rangeArg_error hx with rfl | rfl <;> simp
    | ok v =>
      rw [hx] at h
      dsimp only at h
      unfold pulseBytes at h
      cases e
      · dsimp only at h
        split at h <;> rename_i hq <;> split at hq <;> cases hq <;> cases h
        simp
      · cases h
      · cases h
  · cases h; simp

theorem servoPctPayload_ok {n : Int} {x : NumVal} {p : List Byte} (h : servoPctPayload n x = .ok p) :
    p.length ≤ 8 := by
  unfold servoPctPayload byteArg at h
  split at h
  · simp only [bind, Except.bind] at h
    cases hx : rangeArg 100 x with
    | error r => rw [hx] at h; cases h
    | ok v => rw [hx] at h; cases h; simp
  · cases h

theorem servoPctPayload_error {n : Int} {x : NumVal} {r : DropReason} (h : servoPctPayload n x = .error r) :
    r = .argRange ∨ r = .notNumeric ∨ r = .outOfRange := by
  unfold servoPctPayload byteArg at h
  split at h
  · simp only [bind, Except.bind] at h
    cases hx : rangeArg 100 x with
    | error q => rw [hx] at h; cases h; exact .inr (rangeArg_error hx)
    | ok v => rw [hx] at h; cases h
  · cases h; simp

theorem reversedPairPayload_of_range {m n : Int} (hm : IsByte m) (hn : IsByte n) :
    reversedPairPayload m n = .ok [BitVec.ofInt 8 n, BitVec.ofInt 8 m] := by
  simp [reversedPairPayload, byteArg_of_range hm, byteArg_of_range hn, bind, Except.bind]

theorem reversedPairPayload_of_not_range {m n : Int} (h : ¬ (IsByte m ∧ IsByte n)) :
    reversedPairPayload m n = .error .argRange := by
  by_cases hm : IsByte m
  · simp [reversedPairPayload, byteArg_of_range hm, byteArg_of_not_range (fun hn => h ⟨hm, hn⟩), bind, Except.bind]
  · simp [reversedPairPayload, byteArg_of_not_range hm, bind, Except.bind]

theorem indexPayload_of_range {n : Int} (h : IsByte n) : indexPayload n = .ok [BitVec.ofInt 8 n] := by
  simp [indexPayload, byteArg_of_range h, bind, Except.bind]

theorem indexPayload_of_not_range {n : Int} (h : ¬ IsByte n) : indexPayload n = .error .argRange := by
  simp [indexPayload, byteArg_of_not_range h, bind, Except.bind]

/-! ### Formatter commands -/

/-- A formatter command is one `issue` of a short payload, chosen by its arguments and the parameters alone,
or of a reason its rule names. -/
theorem exec_formatter {i : Instr} {cmd : CmdName} {op : Byte} (h : formatterOp i = some (cmd, op)) (P : Params) :
    ∃ q : Payload, op.toNat ≤ 14 ∧ (∀ p, q = .ok p → p.length ≤ 8) ∧ (∀ r, q = .error r → mayDrop cmd r = true) ∧
      ∀ s : State, s.params = P → exec i s = issue cmd op q s := by
  have hpair : ∀ m n : Int, (∀ p, reversedPairPayload m n = .ok p → p.length ≤ 8) ∧
      ∀ r, reversedPairPayload m n = .error r → r = .argRange := by
    intro m n
    by_cases hr : IsByte m ∧ IsByte n
    · rw [reversedPairPayload_of_range hr.1 hr.2]
      exact ⟨fun p hp => by cases hp; simp, fun r hr => by cases hr⟩
    · rw [reversedPairPayload_of_not_range hr]
      exact ⟨fun p hp => (by cases hp), fun r hr => by cases hr; rfl⟩
  have hidx : ∀ n : Int, (∀ p, indexPayload n = .ok p → p.length ≤ 8) ∧
      ∀ r, indexPayload n = .error r → r = .argRange := by
    intro n
    by_cases hr : IsByte n
    · rw [indexPayload_of_range hr]
      exact ⟨fun p hp => by cases hp; simp, fun r hr => by cases hr⟩
    · rw [indexPayload_of_not_range hr]
      exact ⟨fun p hp => (by cases hp), fun r hr => by cases hr; rfl⟩
  cases i <;> cases h
  case setServoOpenClose n a =>
    refine ⟨servoOpenClosePayload n a, by decide, fun p => servoOpenClosePayload_ok, fun r hr => ?_, fun s _ => rfl⟩
    rcases servoOpenClosePayload_error hr with rfl | rfl <;> rfl
  case setServoMin n x =>
    refine ⟨servoPulsePayload P.pulseEncoding n x, by decide, fun p => servoPulsePayload_ok, fun r hr => ?_, ?_⟩
    · have := servoPulsePayload_error hr
      revert this; cases r <;> simp [mayDrop]
    · rintro s rfl; rfl
  case setServoMax n x =>
    refine ⟨servoPulsePayload P.pulseEncoding n x, by decide, fun p => servoPulsePayload_ok, fun r hr => ?_, ?_⟩
    · have := servoPulsePayload_error hr
      revert this; cases r <;> simp [mayDrop]
    · rintro s rfl; rfl
  case setServoPct n x =>
    refine ⟨servoPctPayload n x, by decide, fun p => servoPctPayload_ok, fun r hr => ?_, fun s _ => rfl⟩
    rcases servoPctPayload_error hr with rfl | rfl | rfl <;> rfl
  case setBaseColor a =>
    exact ⟨.ok (color4 a), by decide, fun p hp => by cases hp; simp [length_color4], fun r hr => (by cases hr),
      fun s _ => rfl⟩
  case setTempColor a t =>
    exact ⟨.ok (color4 a ++ durationBytes t), by decide,
      fun p hp => by cases hp; simp [length_color4, durationBytes], fun r hr => (by cases hr), fun s _ => rfl⟩
  case setPixelCycle m n =>
    exact ⟨reversedPairPayload m n, by decide, (hpair m n).1, fun r hr => by rw [(hpair m n).2 r hr]; rfl,
      fun s _ => rfl⟩
  case setTriggerSwitch m n =>
    exact ⟨reversedPairPayload m n, by decide, (hpair m n).1, fun r hr => by rw [(hpair m n).2 r hr]; rfl,
      fun s _ => rfl⟩
  case setSwitchOn n =>
    exact ⟨indexPayload n, by decide, (hidx n).1, fun r hr => by rw [(hidx n).2 r hr]; rfl, fun s _ => rfl⟩
  case setSwitchOff n =>
    exact ⟨indexPayload n, by decide, (hidx n).1, fun r hr => by rw [(hidx n).2 r hr]; rfl, fun s _ => rfl⟩
  all_goals
    exact ⟨.ok [], by decide, fun p hp => by cases hp; simp, fun r hr => (by cases hr), fun s _ => rfl⟩

/-- ENCODE's effect for a legal opcode and a payload that fits is `sent`. -/
theorem encodeEffect_eq_sent {op : Byte} {p : List Byte} (h1 : op.toNat ≤ 15) (h2 : p.length ≤ 65534) (s : State) :
    encodeEffect op p s = sent op p s := by
  simp only [encodeEffect, Nat.not_lt.mpr h1, Nat.not_lt.mpr h2, if_false, sent]
  rfl

/-- A command with a legal opcode and a payload that fits leaves what `sent` says. -/
theorem issue_eq_sent {cmd : CmdName} {op : Byte} {p : List Byte} {s : State} (hr : s.wasReset = true)
    (h1 : op.toNat ≤ 15) (h2 : p.length ≤ 65534) : issue cmd op (.ok p) s = .next (sent op p s) := by
  rw [issue_of_reset hr, commandEffect_ok, encodeEffect_eq_sent h1 h2]

/-- A command that is dropped leaves what `dropped` says. -/
theorem issue_eq_dropped {cmd : CmdName} {op : Byte} {r : DropReason} {s : State} (hr : s.wasReset = true) :
    issue cmd op (.error r) s = .next (dropped cmd r s) := issue_of_reset hr

/-! ### All operations -/

/-- What an operation that completes did. -/
inductive Did (i : Instr) (s t : State) : Prop where
  | reset (a : Byte) (hi : i = .reset a) (ht : t = s.doReset)
  | setDry (a : Byte) (hi : i = .setDry a) (hr : s.wasReset = true) (ht : t = s.setDry (dryBit a))
  | crcClear (a : Byte) (hi : i = .crcClear a) (hr : s.wasReset = true) (ht : t = s.setCrc 0)
  | crcFeed (d : Byte) (hi : i = .crcFeed d) (hr : s.wasReset = true) (ht : t = s.setCrc (crcStep s.crc d))
  | crcRead (a : Byte) (hi : i = .crcRead a) (hr : s.wasReset = true) (ht : t = s.putResult s.crc)
  | readStatus (a : Byte) (hi : i = .readStatus a) (hr : s.wasReset = true) (ht : t = s.putResult (statusByte s))
  | encoded (op : Byte) (p : List Byte)
      (hi : isEncodeOp i = true ∨ (formatterOp i).isSome = true ∨ ∃ q, i = .sendThermalReading .hostToDevice q)
      (hr : s.wasReset = true) (ht : t = encodeEffect op p s)
  | dropped (cmd : CmdName) (op : Byte) (r : DropReason) (hi : formatterOp i = some (cmd, op))
      (hd : mayDrop cmd r = true) (hr : s.wasReset = true) (ht : t = s.emit [.cmdDropped cmd r])
  | received (bs : List Byte) (hi : (∃ b, i = .rxByte b ∧ bs = [b]) ∨ ∃ p, i = .sendThermalReading .deviceToHost p)
      (hr : s.wasReset = true) (ht : t = rxAll bs s)

/-- A completed formatter command sent a frame or was dropped. -/
theorem did_of_formatter {i : Instr} {s t : State} {cmd : CmdName} {op : Byte} (hf : formatterOp i = some (cmd, op))
    (h : exec i s = .next t) : Did i s t := by
  obtain ⟨q, _, _, hd, he⟩ := exec_formatter hf s.params
  rw [he s rfl] at h
  obtain ⟨hr, ht⟩ := portOp_eq_next h
  cases q with
  | ok p => exact .encoded op p (.inr (.inl (by simp [hf]))) hr ht
  | error r => exact .dropped cmd op r hf (hd r rfl) hr ht

/-- Every operation that completes did one of the things listed. -/
theorem did_of_exec {i : Instr} {s t : State} (h : exec i s = .next t) : Did i s t := by
  cases i with
  | reset a => cases h; exact .reset a rfl rfl
  | setDry a =>
    rw [exec_setDry] at h
    exact .setDry a rfl (portOp_eq_next h).1 (portOp_eq_next h).2
  | crcClear a =>
    rw [exec_crcClear] at h
    exact .crcClear a rfl (portOp_eq_next h).1 (portOp_eq_next h).2
  | crcFeed d =>
    rw [exec_crcFeed] at h
    exact .crcFeed d rfl (portOp_eq_next h).1 (portOp_eq_next h).2
  | crcRead a =>
    rw [exec_crcRead] at h
    exact .crcRead a rfl (portOp_eq_next h).1 (portOp_eq_next h).2
  | encode op p =>
    rw [exec_encode] at h
    exact .encoded op p (.inl rfl) (portOp_eq_next h).1 (portOp_eq_next h).2
  | rxByte b =>
    rw [exec_rxByte] at h
    exact .received [b] (.inl ⟨b, rfl, rfl⟩) (portOp_eq_next h).1 (portOp_eq_next h).2
  | readStatus a =>
    rw [exec_readStatus] at h
    exact .readStatus a rfl (portOp_eq_next h).1 (portOp_eq_next h).2
  | sendThermalReading d p =>
    cases d with
    | hostToDevice =>
      rw [exec_sendThermalReading_out] at h
      exact .encoded 0x0F p (.inr (.inr ⟨p, rfl⟩)) (portOp_eq_next h).1 (portOp_eq_next h).2
    | deviceToHost =>
      by_cases hp : p.length ≤ 65534
      · rw [exec_sendThermalReading_in s hp] at h
        exact .received _ (.inr ⟨p, rfl⟩) (portOp_eq_next h).1 (portOp_eq_next h).2
      · rw [exec_sendThermalReading_none s (Nat.lt_of_not_le hp)] at h
        cases h
  | setServoOpenClose n a => exact did_of_formatter rfl h
  | setServoMin n x => exact did_of_formatter rfl h
  | setServoMax n x => exact did_of_formatter rfl h
  | setServoPct n x => exact did_of_formatter rfl h
  | setBaseColor a => exact did_of_formatter rfl h
  | setTempColor a t => exact did_of_formatter rfl h
  | setPixelCycle m n => exact did_of_formatter rfl h
  | setTriggerSwitch m n => exact did_of_formatter rfl h
  | setSwitchOn n => exact did_of_formatter rfl h
  | setSwitchOff n => exact did_of_formatter rfl h
  | setLaserOn => exact did_of_formatter rfl h
  | setLaserOff => exact did_of_formatter rfl h
  | requestThermalReading => exact did_of_formatter rfl h
  | resetVrcPeriph => exact did_of_formatter rfl h
  | checkServoController => exact did_of_formatter rfl h

end Sys2Proof.Safety
end

