-- ==== Sys2Proof/Laws/Words.lean ====
section
/-! SUPPORT. The fields of a command word, as numbers and as fields. -/

namespace Sys2Proof

theorem opSelect_toNat (w : BitVec 11) : (opSelect w).toNat = w.toNat / 256 := by
  have := w.isLt
  simp only [opSelect, BitVec.extractLsb'_toNat, Nat.shiftRight_eq_div_pow]
  omega

theorem argByte_toNat (w : BitVec 11) : (argByte w).toNat = w.toNat % 256 := by
  simp [argByte, BitVec.extractLsb'_toNat]

/-- A command word is its op-select code above its argument byte. -/
theorem commandWord_toNat (op : BitVec 3) (arg : Byte) : (commandWord op arg).toNat = 2 ^ 8 * op.toNat + arg.toNat := by
  simp only [commandWord, BitVec.toNat_append, Nat.shiftLeft_eq, Nat.mul_comm _ (2 ^ 8)]
  exact (Nat.two_pow_add_eq_or_of_lt arg.isLt _).symm

@[simp] theorem opSelect_commandWord (op : BitVec 3) (arg : Byte) : opSelect (commandWord op arg) = op := by
  apply BitVec.eq_of_toNat_eq
  have := arg.isLt
  rw [opSelect_toNat, commandWord_toNat]
  omega

@[simp] theorem argByte_commandWord (op : BitVec 3) (arg : Byte) : argByte (commandWord op arg) = arg := by
  apply BitVec.eq_of_toNat_eq
  have := arg.isLt
  rw [argByte_toNat, commandWord_toNat]
  omega

/-- A command word is made of its two fields. -/
theorem commandWord_fields (w : BitVec 11) : commandWord (opSelect w) (argByte w) = w := by
  apply BitVec.eq_of_toNat_eq
  rw [commandWord_toNat, opSelect_toNat, argByte_toNat]
  omega

/-- The form in which the spec writes a command word: `0x<op>00 | arg` (R83). -/
theorem shifted_or_arg (op : BitVec 3) (arg : Byte) :
    (op.setWidth 11 <<< 8) ||| arg.setWidth 11 = commandWord op arg := by
  apply BitVec.eq_of_toNat_eq
  have ho := op.isLt
  have ha := arg.isLt
  rw [commandWord_toNat, BitVec.toNat_or, BitVec.toNat_shiftLeft, BitVec.toNat_setWidth, BitVec.toNat_setWidth,
    Nat.mod_eq_of_lt (by omega : op.toNat < 2 ^ 11), Nat.mod_eq_of_lt (by omega : arg.toNat < 2 ^ 11),
    Nat.shiftLeft_eq, Nat.mod_eq_of_lt (by omega), Nat.mul_comm]
  exact (Nat.two_pow_add_eq_or_of_lt ha _).symm

end Sys2Proof
end

