-- ==== Sys2Proof/Laws/PerInstr.lean ====
section
/-! SUPPORT. Statements about every operation as syntax, one lemma per constructor: the encoder writes the
fixed bits of the operation's row of spec/opcode_table.json. -/

namespace Sys2Proof.Laws.TableBits

open Sys2Proof

/-- The bits of a request that its row fixes: word bits 10:8 (mask 0x700), or the opcode byte (mask 0xFF). -/
def fixedBits : Request → Nat
  | .port w _ => w.toNat &&& 0x700
  | .command code _ => code.toNat &&& 0xFF

/-- The `match` value of the operation's row. -/
def rowMatch : Instr → Nat
  | .reset _ => 0x000
  | .setDry _ => 0x100
  | .crcClear _ => 0x200
  | .crcFeed _ => 0x300
  | .crcRead _ => 0x400
  | .encode _ _ => 0x500
  | .rxByte _ => 0x600
  | .readStatus _ => 0x700
  | .setServoOpenClose _ _ => 0x00
  | .setServoMin _ _ => 0x01
  | .setServoMax _ _ => 0x02
  | .setServoPct _ _ => 0x03
  | .setBaseColor _ => 0x04
  | .setTempColor _ _ => 0x05
  | .setPixelCycle _ _ => 0x06
  | .setTriggerSwitch _ _ => 0x07
  | .setSwitchOn _ => 0x08
  | .setSwitchOff _ => 0x09
  | .setLaserOn => 0x0A
  | .setLaserOff => 0x0B
  | .requestThermalReading => 0x0C
  | .resetVrcPeriph => 0x0D
  | .checkServoController => 0x0E
  | .sendThermalReading _ _ => 0x0F

/-- The encoder writes the row's fixed bits. -/
def Statement (i : Instr) : Prop := fixedBits (encode i) = rowMatch i

/-- The op-select bits of a command word, as a number. -/
theorem commandWord_fixed (op : BitVec 3) (arg : Byte) : (commandWord op arg).toNat &&& 0x700 = op.toNat * 256 := by
  rw [commandWord_toNat, show (0x700 : Nat) = 2 ^ 8 * (2 ^ 3 - 1) by norm_num,
    show op.toNat * 256 = 2 ^ 8 * op.toNat by omega]
  apply Nat.eq_of_testBit_eq
  intro j
  rw [Nat.testBit_and, Nat.testBit_two_pow_mul_add _ arg.isLt, Nat.testBit_two_pow_mul, Nat.testBit_two_pow_mul,
    Nat.testBit_two_pow_sub_one]
  by_cases hj : j < 8
  · simp [hj, Nat.not_le.mpr hj]
  by_cases h3 : j - 8 < 3
  · simp [hj, h3, Nat.le_of_not_lt hj]
  · simp [hj, h3, Nat.testBit_lt_two_pow
      (lt_of_lt_of_le op.isLt (Nat.pow_le_pow_right (by norm_num) (Nat.le_of_not_lt h3)))]

theorem reset (arg : Byte) : Statement (.reset arg) := commandWord_fixed 0 arg
theorem setDry (arg : Byte) : Statement (.setDry arg) := commandWord_fixed 1 arg
theorem crcClear (arg : Byte) : Statement (.crcClear arg) := commandWord_fixed 2 arg
theorem crcFeed (d : Byte) : Statement (.crcFeed d) := commandWord_fixed 3 d
theorem crcRead (arg : Byte) : Statement (.crcRead arg) := commandWord_fixed 4 arg
theorem encode (op : Byte) (payload : List Byte) : Statement (.encode op payload) := commandWord_fixed 5 op
theorem rxByte (b : Byte) : Statement (.rxByte b) := commandWord_fixed 6 b
theorem readStatus (arg : Byte) : Statement (.readStatus arg) := commandWord_fixed 7 arg
theorem setServoOpenClose (servo : Int) (action : String) : Statement (.setServoOpenClose servo action) := rfl
theorem setServoMin (servo : Int) (minPulse : NumVal) : Statement (.setServoMin servo minPulse) := rfl
theorem setServoMax (servo : Int) (maxPulse : NumVal) : Statement (.setServoMax servo maxPulse) := rfl
theorem setServoPct (servo : Int) (percent : NumVal) : Statement (.setServoPct servo percent) := rfl
theorem setBaseColor (wrgb : List Elem) : Statement (.setBaseColor wrgb) := rfl
theorem setTempColor (wrgb : List Elem) (time : Option (BitVec 32)) : Statement (.setTempColor wrgb time) := by
  cases time <;> rfl
theorem setPixelCycle (targetPixel delayMs : Int) : Statement (.setPixelCycle targetPixel delayMs) := rfl
theorem setTriggerSwitch (whichSwitch howLong : Int) : Statement (.setTriggerSwitch whichSwitch howLong) := rfl
theorem setSwitchOn (whichSwitch : Int) : Statement (.setSwitchOn whichSwitch) := rfl
theorem setSwitchOff (whichSwitch : Int) : Statement (.setSwitchOff whichSwitch) := rfl
theorem setLaserOn : Statement .setLaserOn := rfl
theorem setLaserOff : Statement .setLaserOff := rfl
theorem requestThermalReading : Statement .requestThermalReading := rfl
theorem resetVrcPeriph : Statement .resetVrcPeriph := rfl
theorem checkServoController : Statement .checkServoController := rfl
theorem sendThermalReading (dir : Direction) (payload : List Byte) : Statement (.sendThermalReading dir payload) := rfl

end Sys2Proof.Laws.TableBits
end

