-- ==== Sys2Proof/Laws/Shared.lean ====
section
/-! SUPPORT. The byte orders, the operand values, and how the shared operations commute with an update they
do not look at. -/

namespace Sys2Proof.Safety

open Sys2Proof Sys2Proof.Machine

/-! ### Two bytes of a 16-bit value -/

theorem joinBytes_toNat (a b : Byte) : (joinBytes a b).toNat = a.toNat * 256 + b.toNat := by
  simp only [joinBytes, BitVec.toNat_append, Nat.shiftLeft_eq, Nat.mul_comm _ (2 ^ 8)]
  exact (Nat.two_pow_add_eq_or_of_lt b.isLt _).symm.trans (by omega)

@[simp] theorem joinBytes_hiByte_loByte (L : BitVec 16) : joinBytes (hiByte L) (loByte L) = L := by
  apply BitVec.eq_of_toNat_eq
  have := L.isLt
  rw [joinBytes_toNat]
  simp only [hiByte, loByte, BitVec.extractLsb'_toNat, Nat.shiftRight_eq_div_pow]
  omega

@[simp] theorem hiByte_joinBytes (a b : Byte) : hiByte (joinBytes a b) = a := by
  apply BitVec.eq_of_toNat_eq
  have := a.isLt
  have := b.isLt
  simp only [hiByte, BitVec.extractLsb'_toNat, Nat.shiftRight_eq_div_pow, joinBytes_toNat]
  omega

@[simp] theorem loByte_joinBytes (a b : Byte) : loByte (joinBytes a b) = b := by
  apply BitVec.eq_of_toNat_eq
  have := a.isLt
  have := b.isLt
  simp only [loByte, BitVec.extractLsb'_toNat, Nat.shiftRight_eq_div_pow, joinBytes_toNat]
  omega

/-! ### Operand values -/

/-- The truncation of a positive rational is the number below it. -/
theorem trunc_eq {v : Rat} {n : Nat} (h0 : 0 < v) (h1 : (n : Rat) ≤ v) (h2 : v < (n : Rat) + 1) : trunc v = n := by
  unfold trunc
  rw [Int.tdiv_eq_ediv_of_nonneg (Rat.num_nonneg.mpr h0.le), ← Rat.floor_def']
  exact (Int.floor_eq_iff.mpr ⟨by exact_mod_cast h1, by exact_mod_cast h2⟩ : ⌊v⌋ = (n : Int))

@[simp] theorem colorElem_byte (b : Byte) : colorElem (.int b.toNat) = some b := by
  have := b.isLt
  simp only [colorElem]
  rw [if_pos ⟨by omega, by omega⟩]
  simp

/-- An element that has a byte is that byte. -/
theorem colorElem_eq_some {e : Elem} {b : Byte} (h : colorElem e = some b) : e = .int b.toNat := by
  unfold colorElem at h
  split at h
  · split at h
    · rename_i n hn
      have hb : BitVec.ofInt 8 n = b := by injection h
      have : n = ((BitVec.ofInt 8 n).toNat : Int) := by rw [BitVec.toNat_ofInt]; omega
      rw [← hb, ← this]
    · cases h
  · cases h

/-! ### Updates the shared operations do not look at -/

theorem portOp_map (f g : State → State) (s : State) (h1 : (f s).wasReset = s.wasReset) (h2 : g (f s) = f (g s)) :
    portOp g (f s) = mapNext f (portOp g s) := by
  simp only [portOp, h1, h2]; split <;> rfl

theorem issue_map (f : State → State) (cmd : CmdName) (op : Byte) (p : Payload) (s : State)
    (h1 : (f s).wasReset = s.wasReset) (h2 : ∀ q, encodeEffect op q (f s) = f (encodeEffect op q s))
    (h3 : ∀ r, (f s).emit [.cmdDropped cmd r] = f (s.emit [.cmdDropped cmd r])) :
    issue cmd op p (f s) = mapNext f (issue cmd op p s) := by
  refine portOp_map f _ s h1 ?_
  cases p with
  | ok q => exact h2 q
  | error r => exact h3 r

theorem encodeEffect_map (f : State → State) (hd : ∀ s, (f s).ctrlDry = s.ctrlDry)
    (he : ∀ s es, (f s).emit es = f (s.emit es)) (ht : ∀ s bs, (f s).txWrite bs = f (s.txWrite bs))
    (op : Byte) (p : List Byte) (s : State) : encodeEffect op p (f s) = f (encodeEffect op p s) := by
  unfold encodeEffect
  simp only [hd, he, ht]
  split
  · rfl
  split
  · rfl
  split <;> rfl

theorem rxAll_map (f : State → State) (h : ∀ b s, rxEffect b (f s) = f (rxEffect b s)) (bs : List Byte)
    (s : State) : rxAll bs (f s) = f (rxAll bs s) := by
  induction bs generalizing s with
  | nil => rfl
  | cons b bs ih => simp only [rxAll_cons, h, ih]

/-- ENCODE's effect appends to the two streams, nothing else. -/
theorem encodeEffect_frame (op : Byte) (p : List Byte) (s : State) :
    ∃ (bs : List Byte) (es : List Event),
      encodeEffect op p s = { s with tx := s.tx ++ bs, events := s.events ++ es } := by
  rcases encodeEffect_cases op p s with ⟨_, e⟩ | ⟨_, _, e⟩ | ⟨_, _, _, e⟩ | ⟨_, _, _, e⟩
  · exact ⟨[], _, by rw [e]; simp [State.emit]; rfl⟩
  · exact ⟨[], _, by rw [e]; simp [State.emit]; rfl⟩
  · exact ⟨[], _, by rw [e]; simp [State.emit]; rfl⟩
  · exact ⟨_, [], by rw [e]; simp [State.txWrite]; rfl⟩

/-! ### The decoder -/

/-- The records of an accepted frame, without the nesting of the rule's pseudocode. -/
theorem acceptRecords_eq (d : Decoder) (ok : Bool) (b : Byte) :
    acceptRecords d ok b = frameRecords d.dop d.dbuf ok b := by
  unfold acceptRecords frameRecords
  by_cases h1 : d.dop = 15#8 <;> by_cases h2 : d.dbuf.length = 64 <;> simp [h1, h2]

/-- A byte on which the decoder's step is known. -/
theorem exec_rxByte_eq {b : Byte} {s : State} (h : s.wasReset = true) {d : Decoder} {es : List Event}
    (hd : decoderStep s.params s.dec b = (d, es)) :
    exec (.rxByte b) s = .next { s with dec := d, events := s.events ++ es } := by
  rw [exec_rxByte_of_reset h, rxEffect_eq, hd]

/-- A byte that aborts. -/
theorem exec_rxByte_abort {b : Byte} {s : State} (h : s.wasReset = true) {code : RxCode}
    (hd : decoderStep s.params s.dec b = abort s.params code b) :
    exec (.rxByte b) s = .next (aborted code b s) := by
  rw [exec_rxByte_of_reset h, rxEffect_eq, hd, abort_eq]
  rfl

end Sys2Proof.Safety
end

