-- ==== Sys2Proof/Tests/Slice0.lean ====
section
/-! SUPPORT. Tests of the model, each expected value taken from spec/ (the vector or rule is named), and for
every obligation with hypotheses a witness that meets them. -/

namespace Sys2Proof.Tests

set_option Elab.async false

open Sys2Proof Sys2Proof.Machine Sys2Proof.Safety

/-! ## Small states -/

/-- 95_test_vectors.md's start: right after RESET, RESCAN true, RX_MAX_LEN 65535, VERIFY_CRC false. -/
def base : State := { State.reset with params := ⟨false, true, 65535, .u16be⟩ }

/-- `base` with another set of parameters. -/
def with' (P : Params) : State := { base with params := P }

/-- `base` in dry mode. -/
def dry : State := { base with ctrlDry := true }

/-- A state at power-on. -/
def off : State := { base with wasReset := false, crc := 0x77 }

/-- `base` with another partial frame. -/
def at' (d : Decoder) : State := { base with dec := d }

/-- What an operation adds to `tx`, `events` and `results` of a state where they are empty. -/
def gains (i : Instr) (s : State) : Option (List Byte × List Event × List Byte) :=
  match exec i s with
  | .next t => some (t.tx, t.events, t.results)
  | _ => none

/-- The partial frame an operation leaves. -/
def decAfter (i : Instr) (s : State) : Option Decoder :=
  match exec i s with
  | .next t => some t.dec
  | _ => none

/-- RX19's end: PAYLOAD of `24 50 3E 00 03 00 02 ..`, dbuf [02], dcnt 1, dcrc 81. -/
def inPayload : Decoder := ⟨.payload, 0x00, 3, 1, 0x00, [0x02], 0x81⟩

/-- RX12's frame before its checksum byte, which should be 06. -/
def atCrc : Decoder := ⟨.rxCrc, 0x00, 3, 0, 0x00, [0x02, 0x96], 0x06⟩

/-- An empty frame of opcode 0F before its checksum byte, which should be 6F (RX8). -/
def atCrc0F : Decoder := ⟨.rxCrc, 0x00, 1, 0, 0x0F, [], 0x6F⟩

/-! ## Ill-formed terms are refused -/

theorem test_wf_encode_too_long (p : List Byte) (h : p.length = 65536) :
    (Instr.encode 0x04 p).WellFormed = false := by simp [Instr.WellFormed, h]
theorem test_wf_send_out_too_long (p : List Byte) (h : p.length = 65536) :
    (Instr.sendThermalReading .hostToDevice p).WellFormed = false := by simp [Instr.WellFormed, h]
theorem test_wf_send_in_too_long (p : List Byte) (h : p.length = 65535) :
    (Instr.sendThermalReading .deviceToHost p).WellFormed = false := by simp [Instr.WellFormed, h]

/-- The decoder refuses them too. -/
theorem test_decode_too_long (p : List Byte) (h : p.length = 65536) :
    decode (.port 0x504 p) = .error .payloadTooLong ∧
    decode (.command 0x0F [.dir .deviceToHost, .bytes p]) = .error .payloadTooLong := by
  refine ⟨by simp [decode, decodePort, opSelect, h], ?_⟩
  show (if (Instr.sendThermalReading .deviceToHost p).WellFormed = true then _ else _) = _
  simp [Instr.WellFormed, h]

/-! ## Decoding, from words written out bit by bit (R80, R81) and from the tables of R75 and R85 -/

theorem test_decode_reset : decode (.port 0b00000000000#11 []) = .ok (.reset 0) := by decide
theorem test_decode_setDry : decode (.port 0b00111111111#11 []) = .ok (.setDry 0xFF) := by decide
theorem test_decode_crcClear : decode (.port 0b01000000000#11 []) = .ok (.crcClear 0) := by decide
theorem test_decode_crcFeed : decode (.port 0b01100100100#11 []) = .ok (.crcFeed 0x24) := by decide
theorem test_decode_crcRead : decode (.port 0b10000000000#11 []) = .ok (.crcRead 0) := by decide
theorem test_decode_encode : decode (.port 0b10100000110#11 [0xFA, 0x10]) = .ok (.encode 0x06 [0xFA, 0x10]) := by
  decide
theorem test_decode_rxByte : decode (.port 0b11001101110#11 []) = .ok (.rxByte 0x6E) := by decide
theorem test_decode_readStatus : decode (.port 0b11100000000#11 []) = .ok (.readStatus 0) := by decide
theorem test_decode_setServoOpenClose :
    decode (.command 0b00000000#8 [.int 2, .str "open"]) = .ok (.setServoOpenClose 2 "open") := by decide
theorem test_decode_setServoMin :
    decode (.command 0b00000001#8 [.int 1, .num .notNum]) = .ok (.setServoMin 1 .notNum) := by decide
theorem test_decode_setServoMax :
    decode (.command 0b00000010#8 [.int 0, .num (.rational 250)]) = .ok (.setServoMax 0 (.rational 250)) := rfl
theorem test_decode_setServoPct :
    decode (.command 0b00000011#8 [.int 1, .num (.rational 150)]) = .ok (.setServoPct 1 (.rational 150)) := rfl
theorem test_decode_setBaseColor :
    decode (.command 0b00000100#8 [.elems [.int 300, .notInt]]) = .ok (.setBaseColor [.int 300, .notInt]) := by decide
theorem test_decode_setTempColor :
    decode (.command 0b00000101#8 [.elems []]) = .ok (.setTempColor [] none) ∧
    decode (.command 0b00000101#8 [.elems [], .bits32 0x3F800000]) = .ok (.setTempColor [] (some 0x3F800000)) := by
  decide
theorem test_decode_setPixelCycle :
    decode (.command 0b00000110#8 [.int 16, .int 250]) = .ok (.setPixelCycle 16 250) := by decide
theorem test_decode_setTriggerSwitch :
    decode (.command 0b00000111#8 [.int 2, .int 100]) = .ok (.setTriggerSwitch 2 100) := by decide
theorem test_decode_setSwitchOn : decode (.command 0b00001000#8 [.int 3]) = .ok (.setSwitchOn 3) := by decide
theorem test_decode_setSwitchOff : decode (.command 0b00001001#8 [.int 3]) = .ok (.setSwitchOff 3) := by decide
theorem test_decode_setLaserOn : decode (.command 0b00001010#8 []) = .ok .setLaserOn := by decide
theorem test_decode_setLaserOff : decode (.command 0b00001011#8 []) = .ok .setLaserOff := by decide
theorem test_decode_requestThermalReading :
    decode (.command 0b00001100#8 []) = .ok .requestThermalReading := by decide
theorem test_decode_resetVrcPeriph : decode (.command 0b00001101#8 []) = .ok .resetVrcPeriph := by decide
theorem test_decode_checkServoController : decode (.command 0b00001110#8 []) = .ok .checkServoController := by decide
theorem test_decode_sendThermalReading :
    decode (.command 0b00001111#8 [.dir .deviceToHost, .bytes [0x80]]) =
      .ok (.sendThermalReading .deviceToHost [0x80]) := by decide

/-- R76: 0x10 names no command; R80: only ENCODE takes a payload; R140: the argument types are fixed. -/
theorem test_decode_rejects :
    decode (.command 0x10 []) = .error (.noSuchCommand 0x10) ∧
    decode (.port 0x324 [0x00]) = .error .unexpectedPayload ∧
    decode (.command 0x08 [.str "3"]) = .error (.badArguments 0x08) := by decide

/-- A row of the opcode table gives its operation, in whole bytes. -/
theorem test_table_words :
    decodeTableWord 16 0x300 = some (.crcFeed 0) ∧ decodeTableWord 16 0x500 = some (.encode 0 []) ∧
    decodeTableWord 8 0x06 = some (.setPixelCycle 0 0) ∧ decodeTableWord 8 0x10 = none ∧
    decodeTableWord 16 0x800 = none := by decide

/-! ## The CRC (95_test_vectors.md §2) -/

/-- The catalogue check value, W1, the residue law's row, and the two header prefixes. -/
theorem test_crc8_values :
    crc8 [0x31, 0x32, 0x33, 0x34, 0x35, 0x36, 0x37, 0x38, 0x39] = 0xBC ∧ crc8 [0x24, 0x50, 0x3C] = 0x6F ∧
    crc8 [0x24, 0x50, 0x3C, 0x6F] = 0x00 ∧ crc8 [0x24, 0x50, 0x3E] = 0x10 ∧ crc8 [0x80] = 0xEF := by
  decide +kernel

/-- §2.2's rounds of 0x24. -/
theorem test_crc_rounds : (List.range 9).map (fun n => crcRounds n 0x24) =
    [0x24, 0x48, 0x90, 0xF5, 0x3F, 0x7E, 0xFC, 0x2D, 0x5A] := by decide +kernel

theorem test_crcClear : exec (.crcClear 0) { base with crc := 0x6F } = .next base := rfl
theorem test_crcFeed : exec (.crcFeed 0x50) { base with crc := 0x5A } = .next { base with crc := 0x56 } := rfl
theorem test_crcFeed_residue : exec (.crcFeed 0x6F) { base with crc := 0x6F } = .next base := rfl
theorem test_crcRead : gains (.crcRead 0xFF) { base with crc := 0x6F } = some ([], [], [0x6F]) := by decide

/-! ## ENCODE (§3) -/

/-- EN18, the builder with the device's direction byte. -/
theorem test_buildFrame_device :
    buildFrame 0x3E 0x00 [0x02, 0x96] = [0x24, 0x50, 0x3E, 0x00, 0x03, 0x00, 0x02, 0x96, 0x06] := by decide +kernel
/-- EN10: preamble bytes in a payload are not escaped. -/
theorem test_encode :
    gains (.encode 0x0F [0x24, 0x50, 0x3E]) base =
      some ([0x24, 0x50, 0x3C, 0x00, 0x04, 0x0F, 0x24, 0x50, 0x3E, 0x6F], [], []) := by decide +kernel
/-- EN12 and EN17. -/
theorem test_encode_bad_opcode :
    gains (.encode 0xFF [0x01]) base = some ([], [.txError .badOpcode 0xFF 1], []) ∧
    gains (.encode 0x10 []) dry = some ([], [.txError .badOpcode 0x10 0], []) := by decide

/-! ## RX_BYTE (§5), one byte on the state the vector's earlier bytes leave -/

/-- RX1 and RX24: the second 24 aborts, and starts a frame only when bytes are re-examined. -/
theorem test_rxByte_rescan :
    exec (.rxByte 0x24) (at' { Decoder.idle with dstate := .seekP, dcrc := 0x5A }) =
      .next { at' { Decoder.idle with dstate := .seekP, dcrc := 0x5A } with
        events := [.rxDiscard .badMark 0x24] } := rfl
/-- RX11 and RX12: a wrong checksum byte under both policies. -/
theorem test_rxByte_crc_policies :
    gains (.rxByte 0x07) { with' ⟨true, true, 65535, .u8⟩ with dec := atCrc } =
      some ([], [.rxDiscard .badCrc 0x07], []) ∧
    gains (.rxByte 0x07) (at' atCrc) = some ([], [.rxFrame 0x00 [0x02, 0x96] false], []) := by decide

/-! ## Control (§6) -/

/-- CT9: RESET in PAYLOAD and in dry mode discards the partial frame without a record. -/
theorem test_reset :
    exec (.reset 0x80) { at' inPayload with ctrlDry := true, events := [.txError .badOpcode 0x10 0] } =
      .next { base with events := [.txError .badOpcode 0x10 0] } := rfl
/-- CT8: only bit 0 counts. -/
theorem test_setDry : exec (.setDry 0xFF) base = .next dry ∧ exec (.setDry 0xFE) dry = .next base := ⟨rfl, rfl⟩
/-- CT3, CT4, CT7 and P5's status 26. -/
theorem test_readStatus :
    gains (.readStatus 0) base = some ([], [], [0x20]) ∧
    gains (.readStatus 0) (with' ⟨true, true, 65535, .u8⟩) = some ([], [], [0x30]) ∧
    gains (.readStatus 0) dry = some ([], [], [0x28]) ∧
    gains (.readStatus 0) (at' inPayload) = some ([], [], [0x26]) := by decide

/-- The codes of 60_exceptions.md R242 and the states' codes of R26. -/
theorem test_codes :
    (Event.rxDiscard .badReadingLen 0).code = some 0x07 ∧ (Event.txError .lenOverflow 0 0).code = some 0x11 ∧
    (Event.cmdDropped .setServoPct .outOfRange).code = some 0x20 ∧ DState.rxCrc.code = 7 := by decide

/-! ## The formatter (§4) -/

/-- P6 and R272: before RESET a command faults, also one whose arguments would drop it. -/
theorem test_formatter_before_reset :
    exec .setLaserOn off = .fault .notReset ∧ exec (.setServoPct 1 (.rational 150)) off = .fault .notReset := ⟨rfl, rfl⟩

/-- FM2. -/
theorem test_setServoOpenClose :
    gains (.setServoOpenClose 2 "close") base = some ([0x24, 0x50, 0x3C, 0x00, 0x03, 0x00, 0x02, 0x64, 0x18], [], []) := by
  decide +kernel
/-- FM3 and FM5: the first failing check gives the reason. -/
theorem test_setServoOpenClose_drop :
    gains (.setServoOpenClose 2 "OPEN") base = some ([], [.cmdDropped .setServoOpenClose .badAction], []) ∧
    gains (.setServoOpenClose 256 "shut") base = some ([], [.cmdDropped .setServoOpenClose .argRange], []) := by
  decide +kernel
/-- FM6, FM7 and FM8: one pulse under the three encodings. -/
theorem test_setServoMin :
    gains (.setServoMin 1 (.rational 500)) base =
      some ([0x24, 0x50, 0x3C, 0x00, 0x04, 0x01, 0x01, 0x01, 0xF4, 0x91], [], []) ∧
    gains (.setServoMin 1 (.rational 500)) (with' ⟨false, true, 65535, .u16le⟩) =
      some ([0x24, 0x50, 0x3C, 0x00, 0x04, 0x01, 0x01, 0xF4, 0x01, 0x08], [], []) ∧
    gains (.setServoMin 1 (.rational 500)) (with' ⟨false, true, 65535, .u8⟩) =
      some ([], [.cmdDropped .setServoMin .pulseExceedsByte], []) := by decide +kernel
/-- FM13: 999.9 truncates to 999. -/
theorem test_setServoMin_trunc : servoPulsePayload .u16be 1 (.rational (mkRat 9999 10)) = .ok [0x01, 0x03, 0xE7] := rfl
/-- FM9. -/
theorem test_setServoMax :
    gains (.setServoMax 0 (.rational 250)) (with' ⟨false, true, 65535, .u8⟩) =
      some ([0x24, 0x50, 0x3C, 0x00, 0x03, 0x02, 0x00, 0xFA, 0xC8], [], []) := by decide +kernel
/-- FM11: the bound is strict. -/
theorem test_setServoMax_bound :
    gains (.setServoMax 1 (.rational 1000)) base = some ([], [.cmdDropped .setServoMax .outOfRange], []) := by
  decide +kernel
/-- FM15: 0.5 truncates to 0. -/
theorem test_setServoPct :
    gains (.setServoPct 1 (.rational (mkRat 1 2))) base =
      some ([0x24, 0x50, 0x3C, 0x00, 0x03, 0x03, 0x01, 0x00, 0x92], [], []) := by decide +kernel
/-- FM18. -/
theorem test_setServoPct_drop :
    gains (.setServoPct 1 (.rational 150)) base = some ([], [.cmdDropped .setServoPct .outOfRange], []) := by
  decide +kernel
/-- FM19: one bad element spoils the whole array. -/
theorem test_setBaseColor :
    gains (.setBaseColor [.int 300, .int (-1), .int 0, .int 0]) base =
      some ([0x24, 0x50, 0x3C, 0x00, 0x05, 0x04, 0x00, 0x00, 0x00, 0x00, 0x1A], [], []) := by decide +kernel
/-- FM23: the default duration. -/
theorem test_setTempColor :
    gains (.setTempColor [.int 255, .int 1, .int 2, .int 3] none) base =
      some ([0x24, 0x50, 0x3C, 0x00, 0x09, 0x05, 0xFF, 0x01, 0x02, 0x03, 0x00, 0x00, 0x00, 0x3F, 0xE2], [], []) := by
  decide +kernel
/-- FM24: a given duration, and a bad element. -/
theorem test_setTempColor_given :
    gains (.setTempColor [.int 0, .int 0, .int 0, .int 300] (some 0x3F800000)) base =
      some ([0x24, 0x50, 0x3C, 0x00, 0x09, 0x05, 0x00, 0x00, 0x00, 0x00, 0x00, 0x00, 0x80, 0x3F, 0xA8], [], []) := by
  decide +kernel
/-- FM25: reversed order. -/
theorem test_setPixelCycle :
    gains (.setPixelCycle 16 250) base = some ([0x24, 0x50, 0x3C, 0x00, 0x03, 0x06, 0xFA, 0x10, 0x64], [], []) := by
  decide +kernel
/-- FM27. -/
theorem test_setPixelCycle_drop :
    gains (.setPixelCycle 16 256) base = some ([], [.cmdDropped .setPixelCycle .argRange], []) := by decide +kernel
/-- FM28. -/
theorem test_setTriggerSwitch :
    gains (.setTriggerSwitch 2 100) base = some ([0x24, 0x50, 0x3C, 0x00, 0x03, 0x07, 0x64, 0x02, 0xB3], [], []) := by
  decide +kernel
/-- FM29. -/
theorem test_setSwitchOn :
    gains (.setSwitchOn 3) base = some ([0x24, 0x50, 0x3C, 0x00, 0x02, 0x08, 0x03, 0x36], [], []) := by decide +kernel
/-- FM31. -/
theorem test_setSwitchOn_drop :
    gains (.setSwitchOn (-1)) base = some ([], [.cmdDropped .setSwitchOn .argRange], []) := by decide +kernel
/-- FM30. -/
theorem test_setSwitchOff :
    gains (.setSwitchOff 3) base = some ([0x24, 0x50, 0x3C, 0x00, 0x02, 0x09, 0x03, 0x3D], [], []) := by decide +kernel
/-- FM32, in dry mode (EN16). -/
theorem test_setLaserOn :
    gains .setLaserOn dry = some ([], [.txDryFrame [0x24, 0x50, 0x3C, 0x00, 0x01, 0x0A, 0xCE]], []) := by decide +kernel
/-- FM33. -/
theorem test_setLaserOff : gains .setLaserOff base = some ([0x24, 0x50, 0x3C, 0x00, 0x01, 0x0B, 0x1B], [], []) := by
  decide +kernel
/-- FM34. -/
theorem test_requestThermalReading :
    gains .requestThermalReading base = some ([0x24, 0x50, 0x3C, 0x00, 0x01, 0x0C, 0x4F], [], []) := by decide +kernel
/-- FM35: the codec itself is not reset (R159). -/
theorem test_resetVrcPeriph :
    gains .resetVrcPeriph base = some ([0x24, 0x50, 0x3C, 0x00, 0x01, 0x0D, 0x9A], [], []) ∧
    decAfter .resetVrcPeriph (at' inPayload) = some inPayload := by decide +kernel
/-- FM36. -/
theorem test_checkServoController :
    gains .checkServoController base = some ([0x24, 0x50, 0x3C, 0x00, 0x01, 0x0E, 0x30], [], []) := by decide +kernel
/-- EN7, the raw ENCODE of opcode 0F. -/
theorem test_sendThermalReading_out :
    gains (.sendThermalReading .hostToDevice []) base = some ([0x24, 0x50, 0x3C, 0x00, 0x01, 0x0F, 0xE5], [], []) := by
  decide +kernel
/-- W7: 64 samples of 128, unscaled. -/
theorem test_sendThermalReading_in :
    gains (.sendThermalReading .deviceToHost (List.replicate 64 0x80)) base =
      some ([], [.rxFrame 0x0F (List.replicate 64 0x80) true,
        .rxReading (Vector.ofFn fun _ => Vector.ofFn fun _ => 0x80)], []) := by decide +kernel

/-! ## Witnesses

For every obligation with hypotheses, and every clause of it, a state and operands that meet them, at the ends
of their ranges. `longest n` is a payload of `n` bytes. -/

/-- A payload of `n` bytes. -/
def longest (n : Nat) : List Byte := List.replicate n 0xFF

theorem length_longest (n : Nat) : (longest n).length = n := List.length_replicate

theorem witness_EncodeThenDecode :
    (Instr.encode 0xFF (longest 65535)).WellFormed = true ∧
    (Instr.sendThermalReading .hostToDevice (longest 65535)).WellFormed = true ∧
    (Instr.sendThermalReading .deviceToHost (longest 65534)).WellFormed = true ∧
    (Instr.setTempColor [.notInt] (some 0x7FC00000)).WellFormed = true := by
  simp [Instr.WellFormed, length_longest]
theorem witness_DecodeThenEncode :
    decode (.port 0x7FF []) = .ok (.readStatus 0xFF) ∧
    decode (.port 0x510 (longest 65535)) = .ok (.encode 0x10 (longest 65535)) := by
  refine ⟨by decide, ?_⟩
  have h := length_longest 65535
  generalize longest 65535 = p at h ⊢
  simp [decode, decodePort, opSelect, argByte, h]
theorem witness_EveryCommandWordIsAnOperation : decode (.port 0x50F [0x00]) = .ok (.encode 0x0F [0x00]) := by decide
theorem witness_StepRunsDecodedOperation :
    base.port = [] ∧
    decode (.port 0x6FF []) = .ok (.rxByte 0xFF) ∧ decode (.command 0xFF []) = .error (.noSuchCommand 0xFF) ∧
    ({ base with port := [.port 0x6FF [], .command 0xFF []] } : State).port = .port 0x6FF [] :: [.command 0xFF []] ∧
    decodeTableWord 16 0x7FF = some (.readStatus 0xFF) ∧ decodeTableWord 8 0x0F =
      some (.sendThermalReading .deviceToHost []) := by decide
theorem witness_IssuedRequestsRunInOrder :
    (∀ i ∈ [Instr.reset 0, .setDry 1, .setLaserOn], i.WellFormed = true) ∧ off.port = [] := by decide
theorem witness_IgnoredArgumentBits :
    (0xFF#8).getLsbD 0 = (0x01#8).getLsbD 0 ∧ (longest 65535).length ≤ 65535 ∧ base.wasReset = true ∧
    15 < (0x10#8).toNat ∧ 15 < (0xFF#8).toNat := by
  refine ⟨by decide, (length_longest 65535).le, rfl, by decide, by decide⟩
theorem witness_CrcLaws : ([0x01] : List Byte).length = ([0xFF] : List Byte).length := rfl
theorem witness_CrcClearRule : base.wasReset = true ∧ off.wasReset = false := by decide
theorem witness_CrcFeedRule :
    base.wasReset = true ∧ base.crc = 0 ∧ off.wasReset = false ∧ ({ base with crc := 0x6F } : State).wasReset = true := by
  decide
theorem witness_CrcReadRule : base.wasReset = true ∧ off.wasReset = false := by decide
theorem witness_ReadStatusRule : (at' inPayload).wasReset = true ∧ off.wasReset = false := by decide
theorem witness_CrcFoldComputesCrc8 : base.wasReset = true := rfl
theorem witness_CrcRegisterWriters :
    base.wasReset = true ∧ base.ctrlDry = false ∧ (0x0F#8).toNat ≤ 15 ∧ (longest 65534).length ≤ 65534 ∧
    exec (.crcFeed 0x24) base = .next { base with crc := 0x5A } ∧ ({ base with crc := 0x5A } : State).crc ≠ base.crc ∧
    exec (.reset 0) { base with crc := 0x5A } = .next base :=
  ⟨rfl, rfl, by decide, (length_longest 65534).le, rfl, by decide, rfl⟩
theorem witness_FrameLayout : (longest 0).length ≤ 65534 ∧ (longest 65534).length ≤ 65534 ∧ 0 < (longest 1).length := by
  simp [length_longest]
theorem witness_EncodeRule :
    off.wasReset = false ∧ base.wasReset = true ∧ base.ctrlDry = false ∧ dry.wasReset = true ∧ dry.ctrlDry = true ∧
    15 < (0x10#8).toNat ∧ (0x0F#8).toNat ≤ 15 ∧
    65534 < (longest 65535).length ∧ (longest 65535).length ≤ 65535 ∧ (longest 65534).length ≤ 65534 := by
  simp [length_longest, base, dry, off, State.reset]
theorem witness_TxGrowsByWholeFrames :
    gains .setLaserOn base = some ([0x24, 0x50, 0x3C, 0x00, 0x01, 0x0A, 0xCE], [], []) ∧ base.tx = [] := by
  decide +kernel

/-- One state for every arm of the decoder, with the byte each arm waits for and another. -/
theorem witness_HeaderArms :
    base.wasReset = true ∧ base.dec.dstate = .seekMark ∧
    (at' { Decoder.idle with dstate := .seekP, dcrc := 0x5A }).dec.dstate = .seekP ∧
    (at' { Decoder.idle with dstate := .seekD, dcrc := 0x56 }).dec.dstate = .seekD ∧
    (0x24#8) ≠ 0x50 ∧ (0x24#8) ≠ 0x3E ∧ (0x50#8) ≠ 0x24 := by decide
/-- The lengths 0, 1, RX_MAX_LEN and RX_MAX_LEN + 1, for RX_MAX_LEN 4 and 65535. -/
theorem witness_LengthArms :
    (at' { Decoder.idle with dstate := .lenHi, dcrc := 0x10 }).dec.dstate = .lenHi ∧
    (at' { Decoder.idle with dstate := .lenLo, dhi := 0xFF }).dec.dstate = .lenLo ∧
    0 = (0x00#8).toNat * 256 + (0x00#8).toNat ∧ 1 = (0x00#8).toNat * 256 + (0x01#8).toNat ∧
    65535 = (0xFF#8).toNat * 256 + (0xFF#8).toNat ∧ 65535 ≤ base.params.rxMaxLen ∧
    (with' ⟨false, true, 4, .u8⟩).params.rxMaxLen < (0x00#8).toNat * 256 + (0x05#8).toNat ∧
    (0x00#8).toNat * 256 + (0x04#8).toNat ≤ (with' ⟨false, true, 4, .u8⟩).params.rxMaxLen := by decide
/-- The last payload byte and one before it, the lengths 1 and 2 and the opcodes 0F and 10. -/
theorem witness_BodyArms :
    (at' { Decoder.idle with dstate := .bodyOp, dlen := 1 }).dec.dstate = .bodyOp ∧
    (at' { Decoder.idle with dstate := .bodyOp, dlen := 2 }).dec.dlen ≠ 1 ∧
    (at' inPayload).dec.dstate = .payload ∧ (at' inPayload).dec.dcnt = 1 ∧
    15 < (0x10#8).toNat ∧ (0x0F#8).toNat ≤ 15 := by decide
theorem witness_ChecksumArm :
    (at' atCrc).wasReset = true ∧ (at' atCrc).dec.dstate = .rxCrc ∧ (at' atCrc).params.verifyCrc = false ∧
    (at' atCrc).dec.dcrc = 0x06 ∧ (0x07#8) ≠ (at' atCrc).dec.dcrc ∧
    ({ at' atCrc0F with params := ⟨true, true, 65535, .u8⟩ } : State).params.verifyCrc = true := by decide
theorem witness_ReadingIsRowMajor : (longest 64).length = 64 ∧ 0 < 8 ∧ 7 < 8 := by decide
theorem witness_DecodeFailuresAreRecords :
    (at' atCrc).dec.dstate = .rxCrc ∧ off.wasReset = false ∧ (at' inPayload).wasReset = true ∧ (at' inPayload).dec.dstate ≠ .seekMark ∧
    exec (.rxByte 0x06) (at' atCrc) = .next { base with events := [.rxFrame 0x00 [0x02, 0x96] true] } :=
  ⟨by decide, by decide, by decide, by decide, rfl⟩
theorem witness_AtMostTwoRecordsPerByte :
    exec (.rxByte 0x00) (at' atCrc0F) =
      .next { base with events := [.rxFrame 0x0F [] false, .rxDiscard .badReadingLen 0x00] } := rfl
theorem witness_PollSplitDoesNotMatter :
    base.wasReset = true ∧ runInstrs (pollOps [0x24]) base =
      .next (at' { Decoder.idle with dstate := .seekP, dcrc := 0x5A }) := ⟨rfl, rfl⟩
theorem witness_LoopbackRoundTrip :
    base.wasReset = true ∧ base.dec.dstate = .seekMark ∧ (0x0F#8).toNat ≤ 15 ∧ (longest 65534).length ≤ 65534 ∧
    (longest 65534).length + 1 ≤ base.params.rxMaxLen ∧
    (longest 3).length + 1 ≤ (with' ⟨true, false, 4, .u8⟩).params.rxMaxLen := by
  simp [length_longest, base, with', State.reset, Decoder.idle]
/-- P3's noise, with and without re-examination. -/
theorem witness_Resynchronisation :
    base.wasReset = true ∧ base.dec.dstate = .seekMark ∧
    ¬ ([0x24, 0x50, 0x3E] : List Byte) <:+: [0x00, 0x24, 0x41, 0xFF, 0x24] ∧ base.params.rescanOnAbort = true ∧
    (with' ⟨false, false, 65535, .u8⟩).params.rescanOnAbort = false ∧
    (longest 64).length + 1 ≤ base.params.rxMaxLen := by decide
theorem witness_EncodeDecodeIndependence :
    base.wasReset = true ∧
    ∀ i ∈ [Instr.rxByte 0x24, .encode 0x0A [], .rxByte 0x50], isEncodeOp i = true ∨ isRxOp i = true := by decide
/-- ResetRule's clauses about the other operations. -/
theorem witness_ResetRule :
    off.wasReset = false ∧ decode (.port 0x5FF [0x00]) = .ok (.encode 0xFF [0x00]) ∧
    formatterOp (.setSwitchOn 256) = some (.setSwitchOn, 0x08) := by decide
theorem witness_PowerOnThenReset :
    off.IsPowerOn ∧ (Instr.encode 0x0A []).WellFormed = true ∧ ∀ a, Instr.encode 0x0A [] ≠ .reset a := by
  refine ⟨by decide, by decide, by simp⟩
theorem witness_SetDryRule :
    dry.wasReset = true ∧ off.wasReset = false ∧ ∃ b, Instr.rxByte 0x24 = .rxByte b := ⟨rfl, rfl, _, rfl⟩
theorem witness_NotResetIsTheOneFault :
    off.wasReset = false ∧ exec (.setDry 1) off = .fault .notReset := ⟨rfl, rfl⟩
theorem witness_AfterResetEverythingCompletes :
    (Instr.sendThermalReading .deviceToHost (longest 65534)).WellFormed = true ∧ base.wasReset = true ∧
    ∀ i ∈ [Instr.setDry 0xFF, .setServoMin 256 .notNum], i.WellFormed = true := by
  simp [Instr.WellFormed, length_longest, base, State.reset]
theorem witness_ServoOpenCloseRule :
    base.wasReset = true ∧ IsByte 0 ∧ IsByte 255 ∧ ¬ IsByte 256 ∧ ¬ IsByte (-1) ∧ "Open" ≠ "open" ∧
    "Open" ≠ "close" := by decide
/-- The ends of the pulse's range, and the two sides of 255 under U8. -/
theorem witness_ServoMinMaxRule :
    base.wasReset = true ∧ IsByte 255 ∧ ¬ IsByte 256 ∧ ¬ ((0 : Rat) < 0 ∧ (0 : Rat) < 1000) ∧
    ¬ ((0 : Rat) < 1000 ∧ (1000 : Rat) < 1000) ∧ (0 : Rat) < 999 ∧ (999 : Rat) < 1000 ∧ ((999 : Nat) : Rat) ≤ 999 ∧
    (999 : Rat) < ((999 : Nat) : Rat) + 1 ∧ base.params.pulseEncoding = .u16be ∧
    (with' ⟨false, true, 65535, .u16le⟩).params.pulseEncoding = .u16le ∧
    (with' ⟨false, true, 65535, .u8⟩).params.pulseEncoding = .u8 ∧ 255 ≤ 255 ∧ 255 < 256 := by
  refine ⟨rfl, by decide, by decide, by norm_num, by norm_num, by norm_num, by norm_num, by norm_num, by norm_num, rfl,
    rfl, rfl, by decide, by decide⟩
theorem witness_PulsePacking : (0 : Rat) < 1 / 1000 ∧ (1 / 1000 : Rat) < 1000 ∧ (0 : Rat) < 999 ∧ (999 : Rat) < 1000 := by
  norm_num
theorem witness_ServoPctRule :
    base.wasReset = true ∧ IsByte 0 ∧ ¬ IsByte 256 ∧ ¬ ((0 : Rat) < 100 ∧ (100 : Rat) < 100) ∧ (0 : Rat) < 1 / 2 ∧
    (1 / 2 : Rat) < 100 ∧ ((0 : Nat) : Rat) ≤ 1 / 2 ∧ (1 / 2 : Rat) < ((0 : Nat) : Rat) + 1 := by
  refine ⟨rfl, by decide, by decide, by norm_num, by norm_num, by norm_num, by norm_num, by norm_num⟩
/-- A bad array has no bytes. -/
theorem witness_BaseColorRule : base.wasReset = true ∧ ¬ ∃ w r g b : Byte, [Elem.int 1, .int 2, .int 3] = colorArray w r g b :=
  ⟨rfl, by simp [colorArray]⟩
theorem witness_TempColorRule : base.wasReset = true ∧ ¬ ∃ w r g b : Byte, [Elem.notInt] = colorArray w r g b :=
  ⟨rfl, by simp [colorArray]⟩
theorem witness_ReversedPairRules :
    base.wasReset = true ∧ IsByte 0 ∧ IsByte 255 ∧ ¬ (IsByte 16 ∧ IsByte 256) ∧ ¬ (IsByte (-1) ∧ IsByte 0) := by decide
theorem witness_SwitchRules : base.wasReset = true ∧ IsByte 255 ∧ ¬ IsByte 256 := by decide
theorem witness_OpcodeOnlyRules :
    base.wasReset = true ∧ base.ctrlDry = false ∧ dry.wasReset = true ∧ dry.ctrlDry = true := by decide
theorem witness_FormatterHasTwoOutcomes :
    formatterOp .checkServoController = some (.checkServoController, 0x0E) ∧ base.wasReset = true := by decide
theorem witness_FormatterBeforeReset :
    formatterOp (.setSwitchOn 256) = some (.setSwitchOn, 0x08) ∧ off.wasReset = false := by decide
theorem witness_SendThermalReadingRule :
    (longest 65534).length ≤ 65534 ∧ 65534 < (longest 65535).length ∧ (longest 64).length = 64 ∧
    65 ≤ (with' ⟨true, true, 65, .u8⟩).params.rxMaxLen ∧ (with' ⟨true, true, 65, .u8⟩).wasReset = true ∧
    (with' ⟨true, true, 65, .u8⟩).dec.dstate = .seekMark := by
  simp [length_longest, with', base, State.reset, Decoder.idle]
theorem witness_EventCodes : (Event.cmdDropped .setServoPct .outOfRange).code = some 0x20 := by decide
/-- An operation that emits, for each clause, and one that does not. -/
theorem witness_EventCauses :
    exec (.rxByte 0x00) (at' atCrc0F) =
      .next { base with events := [.rxFrame 0x0F [] false, .rxDiscard .badReadingLen 0x00] } ∧
    exec (.encode 0x10 []) dry = .next { dry with events := [.txError .badOpcode 0x10 0] } ∧
    formatterOp (.setSwitchOn 256) = some (.setSwitchOn, 0x08) ∧
    exec (.setSwitchOn 256) base = .next { base with events := [.cmdDropped .setSwitchOn .argRange] } ∧
    isEncodeOp (.setDry 1) = false ∧ isRxOp (.setDry 1) = false ∧ (formatterOp (.setDry 1)).isSome = false ∧
    exec (.setDry 1) base = .next dry := ⟨rfl, rfl, rfl, rfl, rfl, rfl, rfl, rfl⟩
/-- OperationFrames: an operation that changes a field, for one field of each kind. -/
theorem witness_OperationFrames :
    exec (.setDry 1) base = .next dry ∧ dry.ctrlDry ≠ base.ctrlDry ∧
    exec (.crcRead 0) base = .next { base with results := [0x00] } ∧
    exec (.rxByte 0x24) base = .next (at' { Decoder.idle with dstate := .seekP, dcrc := 0x5A }) :=
  ⟨rfl, by decide, rfl, rfl⟩
/-- A discard, then the two records of an accepted frame of opcode 0F with a wrong checksum byte (RX8). -/
def threeRecords : List Event := [.rxDiscard .badLen 0x00, .rxFrame 0x0F [] false, .rxDiscard .badReadingLen 0x00]

/-- Both invariants, in a state that is not the reset state: inside a payload, with a frame sent. -/
theorem witness_StepKeepsDecoderInv : DecoderInv (at' inPayload) ∧ step (at' inPayload) = .next (at' inPayload) :=
  ⟨⟨by decide, fun _ => ⟨by decide, by decide, by decide, by decide, by decide, by decide +kernel⟩⟩, rfl⟩
theorem witness_StepKeepsStreamInv :
    StreamInv { at' inPayload with tx := buildFrame 0x3C 0x0A [], events := threeRecords, port := [.port 0x696 []] } ∧
    step { at' inPayload with tx := buildFrame 0x3C 0x0A [], events := threeRecords, port := [.port 0x696 []] } =
      .next { at' atCrc with tx := buildFrame 0x3C 0x0A [], events := threeRecords } := by
  refine ⟨⟨⟨by decide, fun _ => ⟨by decide, by decide, by decide, by decide, by decide, by decide +kernel⟩⟩, ?_, ?_, ?_⟩,
    rfl⟩
  · intro e he
    simp [threeRecords] at he
    rcases he with rfl | rfl | rfl
    · rfl
    · exact ⟨by decide, by decide, by decide⟩
    · trivial
  · refine ⟨[[.rxDiscard .badLen 0x00], frameRecords 0x0F [] false 0x00], rfl, fun g hg => ?_⟩
    simp at hg
    rcases hg with rfl | rfl
    · exact .inr ⟨_, rfl, rfl⟩
    · refine .inl ⟨0x0F, [], 0x00, ?_⟩
      rw [show decide ((0x00 : Byte) = crc8 (frameBody 0x3E 0x0F [])) = false by decide +kernel]
      rfl
  · exact ⟨[buildFrame 0x3C 0x0A []], by simp, fun f hf => ⟨0x0A, [], by decide, by decide, by simpa using hf⟩⟩

end Sys2Proof.Tests
end

/-! PROOFS. The state elements of 10_state.md: the reading (R34), ENCODE's inputs and outputs (R36) and the
append-only output streams (R32). -/

namespace Sys2Proof.Safety

open Sys2Proof Sys2Proof.Machine

/-! ### The reading -/

theorem matrix_getElem (p : List Byte) (r c : Nat) (hr : r < 8) (hc : c < 8) :
    ((matrix p)[r]'hr)[c]'hc = p.getD (8 * r + c) 0 := by
  simp [matrix]

/-- Settles O23: the entry is a lookup in `p` with a default, and 64 bytes never need the default. -/
theorem readingIsRowMajor : Obligations.ReadingIsRowMajor := by
  intro p hp r c hr hc
  have hlt : 8 * r + c < p.length := by omega
  rw [matrix_getElem, List.getD_eq_getElem _ _ hlt]

/-! ### ENCODE is a function of its operands and DRY -/

/-- The bytes and the records ENCODE appends, from its operands and DRY alone (41_encoder.md R121, R122). -/
def encodeOutput (op : Byte) (p : List Byte) (dry : Bool) : List Byte × List Event :=
  if 15 < op.toNat then ([], [.txError .badOpcode op p.length])
  else if 65534 < p.length then ([], [.txError .lenOverflow op p.length])
  else if dry then ([], [.txDryFrame (buildFrame 0x3C op p)])
  else (buildFrame 0x3C op p, [])

theorem encodeOutput_one_stream (op : Byte) (p : List Byte) (dry : Bool) :
    (encodeOutput op p dry).1 = [] ∨ (encodeOutput op p dry).2 = [] := by
  unfold encodeOutput
  split
  · exact .inl rfl
  split
  · exact .inl rfl
  split
  · exact .inl rfl
  · exact .inr rfl

/-- ENCODE's effect is to append its output, and nothing else. -/
theorem encodeEffect_eq_append_output (op : Byte) (p : List Byte) (s : State) :
    encodeEffect op p s =
      { s with
        tx := s.tx ++ (encodeOutput op p s.ctrlDry).1
        events := s.events ++ (encodeOutput op p s.ctrlDry).2 } := by
  obtain ⟨hop, e⟩ | ⟨hop, hlen, e⟩ | ⟨hop, hlen, hdry, e⟩ | ⟨hop, hlen, hdry, e⟩ := encodeEffect_cases op p s
  · simp [e, encodeOutput, hop, State.emit]
  · simp [e, encodeOutput, Nat.not_lt.mpr hop, hlen, State.emit]
  · simp [e, encodeOutput, Nat.not_lt.mpr hop, Nat.not_lt.mpr hlen, hdry, State.emit]
  · simp [e, encodeOutput, Nat.not_lt.mpr hop, Nat.not_lt.mpr hlen, hdry, State.txWrite]

/-- Settles O17: the function is `encodeOutput`, and the rest is ENCODE's NotReset check. -/
theorem encodeIsStateless : Obligations.EncodeIsStateless := by
  intro op p
  refine ⟨encodeOutput op p, encodeOutput_one_stream op p, fun s => ?_⟩
  rw [exec_encode, portOp, encodeEffect_eq_append_output]

/-! ### The streams are only appended to -/

/-- The state with older bytes before `tx` and older records before `events`. -/
def prependStreams (tx : List Byte) (ev : List Event) (s : State) : State :=
  { s with tx := tx ++ s.tx, events := ev ++ s.events }

section
variable (tx : List Byte) (ev : List Event)

theorem emit_prependStreams (s : State) (es : List Event) :
    (prependStreams tx ev s).emit es = prependStreams tx ev (s.emit es) := by
  simp [prependStreams, State.emit]

theorem txWrite_prependStreams (s : State) (bs : List Byte) :
    (prependStreams tx ev s).txWrite bs = prependStreams tx ev (s.txWrite bs) := by
  simp [prependStreams, State.txWrite]

theorem encodeEffect_prependStreams (op : Byte) (p : List Byte) (s : State) :
    encodeEffect op p (prependStreams tx ev s) = prependStreams tx ev (encodeEffect op p s) :=
  encodeEffect_map (prependStreams tx ev) (fun _ => rfl) (emit_prependStreams tx ev) (txWrite_prependStreams tx ev)
    op p s

/-- The decoder's step reads the parameters and the partial frame only, so its records are the same. -/
theorem rxEffect_prependStreams (b : Byte) (s : State) :
    rxEffect b (prependStreams tx ev s) = prependStreams tx ev (rxEffect b s) :=
  emit_prependStreams tx ev (s.setDec (decoderStep s.params s.dec b).1) (decoderStep s.params s.dec b).2

theorem rxAll_prependStreams (bs : List Byte) (s : State) :
    rxAll bs (prependStreams tx ev s) = prependStreams tx ev (rxAll bs s) :=
  rxAll_map _ (rxEffect_prependStreams tx ev) bs s

/-- An operation behind the NotReset check does not see the streams when its effect does not. -/
theorem portOp_prependStreams {g : State → State} {s : State}
    (h : g (prependStreams tx ev s) = prependStreams tx ev (g s)) :
    portOp g (prependStreams tx ev s) = mapNext (prependStreams tx ev) (portOp g s) :=
  portOp_map _ g s rfl h

/-- A formatter command's payload depends on its arguments and the parameters, so it issues the same. -/
theorem exec_formatter_prependStreams {i : Instr} {cmd : CmdName} {op : Byte}
    (hf : formatterOp i = some (cmd, op)) (s : State) :
    exec i (prependStreams tx ev s) = mapNext (prependStreams tx ev) (exec i s) := by
  obtain ⟨q, -, -, -, hissue⟩ := exec_formatter hf s.params
  rw [hissue s rfl, hissue (prependStreams tx ev s) rfl]
  exact issue_map _ cmd op q s rfl (fun p => encodeEffect_prependStreams tx ev op p s)
    (fun _ => emit_prependStreams tx ev s _)

/-- An inbound frame is refused for its length alone, else received byte by byte. -/
theorem exec_sendThermalReading_prependStreams (d : Direction) (p : List Byte) (s : State) :
    exec (.sendThermalReading d p) (prependStreams tx ev s) =
      mapNext (prependStreams tx ev) (exec (.sendThermalReading d p) s) := by
  cases d with
  | hostToDevice => exact portOp_prependStreams tx ev (encodeEffect_prependStreams tx ev 0x0F p s)
  | deviceToHost =>
    by_cases hp : p.length ≤ 65534
    · rw [exec_sendThermalReading_in _ hp, exec_sendThermalReading_in _ hp]
      exact portOp_prependStreams tx ev (rxAll_prependStreams tx ev _ s)
    · have hlong := Nat.lt_of_not_le hp
      rw [exec_sendThermalReading_none _ hlong, exec_sendThermalReading_none _ hlong]
      rfl

/-- A port operation takes what it writes from its operands and the registers, never from the streams. -/
theorem exec_not_formatter_prependStreams {i : Instr} (hf : formatterOp i = none) (s : State) :
    exec i (prependStreams tx ev s) = mapNext (prependStreams tx ev) (exec i s) := by
  cases i <;> cases hf
  case reset a => rfl
  case setDry a => exact portOp_prependStreams tx ev (g := fun t => t.setDry (dryBit a)) rfl
  case crcClear a => exact portOp_prependStreams tx ev (g := fun t => t.setCrc 0) rfl
  case crcFeed d => exact portOp_prependStreams tx ev (g := fun t => t.setCrc (crcStep t.crc d)) rfl
  case crcRead a => exact portOp_prependStreams tx ev (g := fun t => t.putResult t.crc) rfl
  case readStatus a => exact portOp_prependStreams tx ev (g := fun t => t.putResult (statusByte t)) rfl
  case encode op p => exact portOp_prependStreams tx ev (encodeEffect_prependStreams tx ev op p s)
  case rxByte b => exact portOp_prependStreams tx ev (rxEffect_prependStreams tx ev b s)
  case sendThermalReading d p => exact exec_sendThermalReading_prependStreams tx ev d p s

end

/-- Settles O48: each shared effect commutes with putting older output before the streams. -/
theorem streamsAreAppendOnly : Obligations.StreamsAreAppendOnly := by
  intro i s tx ev
  cases hf : formatterOp i with
  | some c => exact exec_formatter_prependStreams tx ev hf s
  | none => exact exec_not_formatter_prependStreams tx ev hf s

end Sys2Proof.Safety

/-! PROOFS. The encodings of 30_encoding.md: the frame's layout (R70, R74) and the argument bits of the port
operations (R82). -/

namespace Sys2Proof.Safety

open Sys2Proof Sys2Proof.Machine

/-! ### The frame's layout -/

/-- The length field of a frame with `p` (R70). -/
def lengthField (p : List Byte) : BitVec 16 := BitVec.ofNat 16 (1 + p.length)

/-- A frame is six header bytes, the payload and the checksum byte. -/
theorem buildFrame_eq_header_append (dir op : Byte) (p : List Byte) :
    buildFrame dir op p =
      [0x24, 0x50, dir, hiByte (lengthField p), loByte (lengthField p), op] ++
        (p ++ [crc8 (frameBody dir op p)]) := rfl

theorem length_buildFrame (dir op : Byte) (p : List Byte) : (buildFrame dir op p).length = p.length + 7 := by
  simp [buildFrame]

/-- R73's limit on the payload is what makes `1 + len(p)` fit the field. -/
theorem lengthField_bytes {p : List Byte} (hp : p.length ≤ 65534) :
    (hiByte (lengthField p)).toNat * 256 + (loByte (lengthField p)).toNat = 1 + p.length := by
  rw [← joinBytes_toNat, joinBytes_hiByte_loByte, lengthField, BitVec.toNat_ofNat]
  omega

theorem buildFrame_getElem?_payload (dir op : Byte) {p : List Byte} {k : Nat} (hk : k < p.length) :
    (buildFrame dir op p)[6 + k]? = p[k]? := by
  rw [buildFrame_eq_header_append, List.getElem?_append_right (Nat.le_add_right 6 k)]
  simp [List.getElem?_append_left hk]

/-- What stands before the checksum byte is the frame's body. -/
theorem take_buildFrame (dir op : Byte) (p : List Byte) :
    (buildFrame dir op p).take (6 + p.length) = frameBody dir op p :=
  List.take_left' (by rw [length_frameBody, Nat.add_comm])

theorem buildFrame_getElem?_checksum (dir op : Byte) (p : List Byte) :
    (buildFrame dir op p)[6 + p.length]? = some (crc8 (frameBody dir op p)) := by
  rw [Nat.add_comm, ← length_frameBody dir op p]
  exact List.getElem?_concat_length

/-- Settles O15: the header is read off the frame, and the rest is one lemma per part of the frame. -/
theorem frameLayout : Obligations.FrameLayout := by
  intro dir op p hp
  refine ⟨length_buildFrame dir op p, rfl, rfl, rfl, ⟨_, _, rfl, rfl, lengthField_bytes hp⟩, rfl,
    fun k hk => buildFrame_getElem?_payload dir op hk, ?_⟩
  rw [take_buildFrame, buildFrame_getElem?_checksum]

/-! ### The argument bits -/

/-- A port word of op-select code 5 is ENCODE, whose opcode is the whole argument byte (R80, R81). -/
theorem decode_port_encode (op : Byte) {p : List Byte} (hp : p.length ≤ 65535) :
    decode (.port (commandWord 5 op) p) = .ok (.encode op p) := by
  simp [decode, decodePort, hp]

/-- The opcode check of 41_encoder.md R121 comes first, whatever the payload and DRY are. -/
theorem exec_encode_badOpcode {op : Byte} {s : State} (p : List Byte) (hr : s.wasReset = true)
    (hop : 15 < op.toNat) :
    exec (.encode op p) s = .next { s with events := s.events ++ [.txError .badOpcode op p.length] } := by
  rw [exec_encode, portOp_of_reset hr, encodeEffect, if_pos hop]
  rfl

/-- SET_DRY reads bit 0 of its argument only (44_control.md R221). -/
theorem exec_setDry_congr {a b : Byte} (s : State) (h : a.getLsbD 0 = b.getLsbD 0) :
    exec (.setDry a) s = exec (.setDry b) s := by
  rw [exec_setDry, exec_setDry, dryBit, dryBit, h]

/-- Settles O7: four operations are effects without the argument in them, SET_DRY reads bit 0, and ENCODE reads
the whole byte. -/
theorem ignoredArgumentBits : Obligations.IgnoredArgumentBits := by
  intro a b s
  refine ⟨?reset, ?crcClear, ?crcRead, ?readStatus, exec_setDry_congr s,
    fun p hp => ⟨?word, exec_encode_badOpcode p⟩⟩
  case reset => rw [exec_reset, exec_reset]
  case crcClear => rw [exec_crcClear, exec_crcClear]
  case crcRead => rw [exec_crcRead, exec_crcRead]
  case readStatus => rw [exec_readStatus, exec_readStatus]
  case word =>
    have hword : 0x500#11 ||| a.setWidth 11 = commandWord 5 a := shifted_or_arg 5 a
    rw [hword, decode_port_encode a hp]

end Sys2Proof.Safety

/-! PROOFS. The CRC port of 40_crc.md: CRC_CLEAR (R104), CRC_FEED (R105) and the operations that write the CRC
register (R108). -/

namespace Sys2Proof.Safety

open Sys2Proof Sys2Proof.Machine

/-! ### The two operations -/

/-- CRC_CLEAR is op-select code 2, whatever its argument byte is (R81, R104). -/
theorem decode_port_crcClear (arg : Byte) : decode (.port (commandWord 2 arg) []) = .ok (.crcClear arg) := by
  simp [decode, decodePort, withoutPayload]

/-- CRC_FEED is op-select code 3 above its data byte (R81, R105). -/
theorem decode_port_crcFeed (d : Byte) : decode (.port (commandWord 3 d) []) = .ok (.crcFeed d) := by
  simp [decode, decodePort, withoutPayload]

theorem exec_crcClear_of_reset {s : State} (h : s.wasReset = true) (arg : Byte) :
    exec (.crcClear arg) s = .next { s with crc := 0 } := by
  rw [exec_crcClear, portOp_of_reset h, State.setCrc]

theorem exec_crcFeed_of_reset {s : State} (h : s.wasReset = true) (d : Byte) :
    exec (.crcFeed d) s = .next { s with crc := crcStep s.crc d } := by
  rw [exec_crcFeed, portOp_of_reset h, State.setCrc]

/-- Settles O10: the word is op-select code 2, and the operation is a write of 0 behind the NotReset check. -/
theorem crcClearRule : Obligations.CrcClearRule := by
  intro arg s
  have hword : 0x200#11 ||| arg.setWidth 11 = commandWord 2 arg := shifted_or_arg 2 arg
  refine ⟨?_, fun hr => exec_crcClear_of_reset hr arg, fun hr => ?_⟩
  · rw [hword, decode_port_crcClear]
  · rw [exec_crcClear, portOp_of_not_reset hr]

/-- A register fed its own value holds 0, since the byte is XORed in first (R101, R105). -/
theorem crcStep_self (c : Byte) : crcStep c c = 0 := by
  rw [crcStep, BitVec.xor_self]
  exact crcRounds_zero 8

/-- Settles O11: the word is op-select code 3, the operation folds its byte in behind the NotReset check, and the
corner cases are values of `crcStep`. -/
theorem crcFeedRule : Obligations.CrcFeedRule := by
  refine ⟨fun d s => ⟨?word, fun hr => exec_crcFeed_of_reset hr d, fun hr => ?notReset⟩,
    fun s hr h0 => ⟨?feedZero, ?feedMark⟩, fun s hr => ?feedSelf⟩
  case word =>
    have hword : 0x300#11 ||| d.setWidth 11 = commandWord 3 d := shifted_or_arg 3 d
    rw [hword, decode_port_crcFeed]
  case notReset => rw [exec_crcFeed, portOp_of_not_reset hr]
  case feedZero => rw [exec_crcFeed_of_reset hr, h0, crcStep_self, ← h0]
  case feedMark =>
    have h5A : crcStep 0 0x24 = 0x5A := by decide
    rw [exec_crcFeed_of_reset hr, h0, h5A]
  case feedSelf => rw [exec_crcFeed_of_reset hr, crcStep_self]

/-! ### Who writes the CRC register -/

/-- What a completed operation leaves in the CRC register (R108): every arm but three hands it on. -/
theorem crc_of_did {i : Instr} {s t : State} (h : Did i s t) :
    t.crc = s.crc ∨ ((∃ a, i = .reset a) ∧ t.crc = 0) ∨ (∃ a, i = .crcClear a) ∨ ∃ d, i = .crcFeed d := by
  cases h with
  | reset a hi ht => subst ht; exact .inr (.inl ⟨⟨a, hi⟩, rfl⟩)
  | crcClear a hi => exact .inr (.inr (.inl ⟨a, hi⟩))
  | crcFeed d hi => exact .inr (.inr (.inr ⟨d, hi⟩))
  | setDry a _ _ ht => subst ht; exact .inl rfl
  | crcRead a _ _ ht => subst ht; exact .inl rfl
  | readStatus a _ _ ht => subst ht; exact .inl rfl
  | dropped cmd op r _ _ _ ht => subst ht; exact .inl rfl
  | encoded op p _ _ ht =>
    obtain ⟨bs, es, he⟩ := encodeEffect_frame op p s
    exact .inl (by rw [ht, he])
  | received bs _ _ ht =>
    obtain ⟨d, es, hd⟩ := rxAll_frame bs s
    exact .inl (by rw [ht, hd])

/-- ENCODE's effect reads its operands and DRY, never the CRC register. -/
theorem encodeEffect_setCrc (c op : Byte) (p : List Byte) (s : State) :
    encodeEffect op p (s.setCrc c) = (encodeEffect op p s).setCrc c :=
  encodeEffect_map (fun t => t.setCrc c) (fun _ => rfl) (fun _ _ => rfl) (fun _ _ => rfl) op p s

/-- A sent frame ends with the checksum of the bytes before it (R70, R108). -/
theorem exec_encode_appends_crc8 {op : Byte} {p : List Byte} {s : State} (hr : s.wasReset = true)
    (hop : op.toNat ≤ 15) (hlen : p.length ≤ 65534) (hdry : s.ctrlDry = false) :
    exec (.encode op p) s =
      .next { s with tx := s.tx ++ frameBody 0x3C op p ++ [crc8 (frameBody 0x3C op p)] } := by
  rw [exec_encode, portOp_of_reset hr, encodeEffect_eq_sent hop hlen]
  simp [sent, hdry, buildFrame]

/-- Settles O14: the writers are read off what a completed operation did, ENCODE and RX_BYTE commute with a write
of the register, and the checksum's bytes are the frame's body. -/
theorem crcRegisterWriters : Obligations.CrcRegisterWriters := by
  refine ⟨fun i s t h hne => (crc_of_did (did_of_exec h)).resolve_left hne, fun c op p s => ?encode,
    fun c b s => ?rxByte, fun op p s hr hop hlen hdry => ⟨_, exec_encode_appends_crc8 hr hop hlen hdry⟩⟩
  case encode => exact portOp_map (fun t => t.setCrc c) _ s rfl (encodeEffect_setCrc c op p s)
  case rxByte => exact portOp_map (fun t => t.setCrc c) (rxEffect b) s rfl rfl

end Sys2Proof.Safety

/-! PROOFS. ENCODE of 41_encoder.md: its checks in their order and the frame it logs or sends (R121 to R124). -/

namespace Sys2Proof.Safety

open Sys2Proof Sys2Proof.Machine

/-! ### Where a built frame goes -/

/-- In dry mode the frame is logged and `tx` is left alone (R122). -/
theorem sent_of_dry {s : State} (h : s.ctrlDry = true) (op : Byte) (p : List Byte) :
    sent op p s = { s with events := s.events ++ [.txDryFrame (buildFrame 0x3C op p)] } := if_pos h

theorem sent_of_not_dry {s : State} (h : s.ctrlDry = false) (op : Byte) (p : List Byte) :
    sent op p s = { s with tx := s.tx ++ buildFrame 0x3C op p } := if_neg (ne_true_of_eq_false h)

/-! ### ENCODE after RESET -/

/-- The length check comes second, so it speaks for a legal opcode (R121). -/
theorem exec_encode_lenOverflow {op : Byte} {p : List Byte} {s : State} (hr : s.wasReset = true)
    (hop : op.toNat ≤ 15) (hlen : 65534 < p.length) :
    exec (.encode op p) s = .next { s with events := s.events ++ [.txError .lenOverflow op p.length] } := by
  rw [exec_encode, portOp_of_reset hr, encodeEffect, if_neg (Nat.not_lt.mpr hop), if_pos hlen]
  rfl

/-- Past both checks ENCODE does no more than log or send its frame. -/
theorem exec_encode_eq_sent {op : Byte} {p : List Byte} {s : State} (hr : s.wasReset = true)
    (hop : op.toNat ≤ 15) (hlen : p.length ≤ 65534) : exec (.encode op p) s = .next (sent op p s) := by
  rw [exec_encode, portOp_of_reset hr, encodeEffect_eq_sent hop hlen]

/-- Settles O16: the word is op-select code 5, the effect stands behind the NotReset check, and past the opcode
and length checks DRY alone says where the frame goes. -/
theorem encodeRule : Obligations.EncodeRule := by
  intro op p s
  refine ⟨fun hp => ?word, fun hr => ?notReset, exec_encode_badOpcode p, exec_encode_lenOverflow,
    fun hr hop hlen hdry => ?dry, fun hr hop hlen hdry => ?send⟩
  case word =>
    have hword : 0x500#11 ||| op.setWidth 11 = commandWord 5 op := shifted_or_arg 5 op
    rw [hword, decode_port_encode op hp]
  case notReset => rw [exec_encode, portOp_of_not_reset hr]
  case dry => rw [exec_encode_eq_sent hr hop hlen, sent_of_dry hdry]
  case send => rw [exec_encode_eq_sent hr hop hlen, sent_of_not_dry hdry]

end Sys2Proof.Safety

/-! PROOFS. The formatter of 42_payload_rules.md: the operand forms of its section 1, the payload each rule of its
section 2 builds, and the commands. -/

namespace Sys2Proof.Safety

open Sys2Proof Sys2Proof.Machine

/-! ### Numbers in an open range -/

theorem rangeArg_notNum (bound : Rat) : rangeArg bound .notNum = .error .notNumeric := rfl

theorem rangeArg_of_range {bound v : Rat} (h : 0 < v ∧ v < bound) : rangeArg bound (.rational v) = .ok v := if_pos h

theorem rangeArg_of_not_range {bound v : Rat} (h : ¬ (0 < v ∧ v < bound)) :
    rangeArg bound (.rational v) = .error .outOfRange := if_neg h

/-- A truncated value stays below an integer bound of the value. -/
theorem lt_of_cast_le_of_lt {v : Rat} {n k : Nat} (h1 : (n : Rat) ≤ v) (h2 : v < (k : Rat)) : n < k := by
  exact_mod_cast h1.trans_lt h2

/-! ### Bytes of a value -/

/-- A byte of a word is a digit of its number in base 256. -/
theorem extractLsb'_byte {w : Nat} (x : BitVec w) (k : Nat) :
    x.extractLsb' k 8 = BitVec.ofNat 8 (x.toNat / 2 ^ k) := by
  rw [BitVec.extractLsb', Nat.shiftRight_eq_div_pow]

theorem hiByte_ofNat (n : Nat) : hiByte (BitVec.ofNat 16 n) = BitVec.ofNat 8 (n / 256) := by
  apply BitVec.eq_of_toNat_eq
  simp only [hiByte, extractLsb'_byte, BitVec.toNat_ofNat]
  omega

theorem loByte_ofNat (n : Nat) : loByte (BitVec.ofNat 16 n) = BitVec.ofNat 8 (n % 256) := by
  apply BitVec.eq_of_toNat_eq
  simp only [loByte, extractLsb'_byte, BitVec.toNat_ofNat]
  omega

/-! ### `pulse_bytes` (R143) -/

section
variable {v : Rat} {n : Nat}

theorem pulseBytes_u16be (ht : trunc v = n) :
    pulseBytes .u16be v = .ok [BitVec.ofNat 8 (n / 256), BitVec.ofNat 8 (n % 256)] := by
  rw [← hiByte_ofNat, ← loByte_ofNat]
  simp [pulseBytes, ht, hiByte, loByte]

theorem pulseBytes_u16le (ht : trunc v = n) :
    pulseBytes .u16le v = .ok [BitVec.ofNat 8 (n % 256), BitVec.ofNat 8 (n / 256)] := by
  rw [← hiByte_ofNat, ← loByte_ofNat]
  simp [pulseBytes, ht, hiByte, loByte]

theorem pulseBytes_u8_of_le (ht : trunc v = n) (hn : n ≤ 255) : pulseBytes .u8 v = .ok [BitVec.ofNat 8 n] := by
  have hle : ¬ (255 : Int) < n := by omega
  have hmod : n % 256 = n := Nat.mod_eq_of_lt (Nat.lt_succ_of_le hn)
  rw [← hmod, ← loByte_ofNat]
  simp [pulseBytes, ht, hle, loByte]

theorem pulseBytes_u8_of_gt (ht : trunc v = n) (hn : 255 < n) : pulseBytes .u8 v = .error .pulseExceedsByte := by
  have hgt : (255 : Int) < n := by omega
  simp [pulseBytes, ht, hgt]

end

/-- Settles O38: the number is the floor, which is the truncation of a positive value. -/
theorem pulsePacking : Obligations.PulsePacking := by
  intro v h0 h1
  have hle : ((⌊v⌋₊ : Nat) : Rat) ≤ v := Nat.floor_le h0.le
  have hlt : v < (⌊v⌋₊ : Nat) + 1 := Nat.lt_floor_add_one v
  have ht : trunc v = (⌊v⌋₊ : Nat) := trunc_eq h0 hle hlt
  have hmax : ⌊v⌋₊ < 1000 := lt_of_cast_le_of_lt hle h1
  refine ⟨⌊v⌋₊, hle, hlt, by omega, pulseBytes_u16be ht, pulseBytes_u16le ht, ?_⟩
  split
  case isTrue hgt => exact pulseBytes_u8_of_gt ht hgt
  case isFalse hn => exact pulseBytes_u8_of_le ht (by omega)

/-! ### `set_servo_min` and `set_servo_max` (R147, R148) -/

section
variable {e : PulseEncoding} {servo : Int} {x : NumVal} {v : Rat} {r : DropReason}

theorem servoPulsePayload_of_not_byte (h : ¬ IsByte servo) : servoPulsePayload e servo x = .error .argRange := by
  simp [servoPulsePayload, byteArg_of_not_range h, bind, Except.bind]

theorem servoPulsePayload_of_rangeArg_error (h : IsByte servo) (hx : rangeArg 1000 x = .error r) :
    servoPulsePayload e servo x = .error r := by
  simp [servoPulsePayload, byteArg_of_range h, hx, bind, Except.bind]

/-- Past its checks the payload is the servo byte and the pulse's bytes, or the pulse's drop. -/
theorem servoPulsePayload_of_range (h : IsByte servo) (hv : 0 < v ∧ v < 1000) :
    servoPulsePayload e servo (.rational v) = (pulseBytes e v).map (BitVec.ofInt 8 servo :: ·) := by
  simp only [servoPulsePayload, byteArg_of_range h, rangeArg_of_range hv, bind, Except.bind]
  cases pulseBytes e v <;> rfl

end

/-- The two pulse commands differ in their name and their opcode only. -/
theorem servoPulseRule_of_issue {mk : Int → NumVal → Instr} {cmd : CmdName} {op : Byte} (hop : op.toNat ≤ 15)
    (hexec : ∀ s servo x, exec (mk servo x) s = issue cmd op (servoPulsePayload s.params.pulseEncoding servo x) s) :
    ServoPulseRule mk cmd op := by
  intro servo s hr
  refine ⟨fun hb x => ?argRange, fun hb => ?notNumeric, fun hb v hv => ?outOfRange,
    fun hb v n h0 h1 hle hlt => ?inRange⟩
  case argRange => rw [hexec, servoPulsePayload_of_not_byte hb, issue_eq_dropped hr]
  case notNumeric =>
    rw [hexec, servoPulsePayload_of_rangeArg_error hb (rangeArg_notNum 1000), issue_eq_dropped hr]
  case outOfRange =>
    rw [hexec, servoPulsePayload_of_rangeArg_error hb (rangeArg_of_not_range hv), issue_eq_dropped hr]
  case inRange =>
    have ht : trunc v = n := trunc_eq h0 hle hlt
    rw [hexec, servoPulsePayload_of_range hb ⟨h0, h1⟩]
    refine ⟨fun he => ?u16be, fun he => ?u16le, fun he hn => ?u8, fun he hn => ?u8Drop⟩
    case u16be => rw [he, pulseBytes_u16be ht]; exact issue_eq_sent hr hop (by simp)
    case u16le => rw [he, pulseBytes_u16le ht]; exact issue_eq_sent hr hop (by simp)
    case u8 => rw [he, pulseBytes_u8_of_le ht hn]; exact issue_eq_sent hr hop (by simp)
    case u8Drop => rw [he, pulseBytes_u8_of_gt ht hn]; exact issue_eq_dropped hr

/-- Settles O37: both commands issue the same payload, under opcodes 0x01 and 0x02. -/
theorem servoMinMaxRule : Obligations.ServoMinMaxRule :=
  ⟨servoPulseRule_of_issue (by decide) exec_setServoMin, servoPulseRule_of_issue (by decide) exec_setServoMax⟩

/-! ### `set_servo_pct` (R149) -/

section
variable {servo : Int} {x : NumVal} {v : Rat} {r : DropReason}

theorem servoPctPayload_of_not_byte (h : ¬ IsByte servo) : servoPctPayload servo x = .error .argRange := by
  simp [servoPctPayload, byteArg_of_not_range h, bind, Except.bind]

theorem servoPctPayload_of_rangeArg_error (h : IsByte servo) (hx : rangeArg 100 x = .error r) :
    servoPctPayload servo x = .error r := by
  simp [servoPctPayload, byteArg_of_range h, hx, bind, Except.bind]

theorem servoPctPayload_of_range (h : IsByte servo) (hv : 0 < v ∧ v < 100) :
    servoPctPayload servo (.rational v) = .ok [BitVec.ofInt 8 servo, BitVec.ofInt 8 (trunc v)] := by
  simp [servoPctPayload, byteArg_of_range h, rangeArg_of_range hv, bind, Except.bind]

end

/-- Settles O39: one payload equation for each check, and the truncation of a value below 100 is at most 99. -/
theorem servoPctRule : Obligations.ServoPctRule := by
  intro servo s hr
  refine ⟨fun hb x => ?argRange, fun hb => ?notNumeric, fun hb v hv => ?outOfRange,
    fun hb v n h0 h1 hle hlt => ⟨?bound, ?send⟩⟩
  case argRange => rw [exec_setServoPct, servoPctPayload_of_not_byte hb, issue_eq_dropped hr]
  case notNumeric =>
    rw [exec_setServoPct, servoPctPayload_of_rangeArg_error hb (rangeArg_notNum 100), issue_eq_dropped hr]
  case outOfRange =>
    rw [exec_setServoPct, servoPctPayload_of_rangeArg_error hb (rangeArg_of_not_range hv), issue_eq_dropped hr]
  case bound => exact Nat.le_of_lt_succ (lt_of_cast_le_of_lt hle h1)
  case send =>
    rw [exec_setServoPct, servoPctPayload_of_range hb ⟨h0, h1⟩, trunc_eq h0 hle hlt, BitVec.ofInt_natCast]
    exact issue_eq_sent hr (by decide) (by simp)

/-! ### The colour array and the duration (R144, R145) -/

theorem color4_colorArray (w r g b : Byte) : color4 (colorArray w r g b) = [w, r, g, b] := by
  simp [color4, colorArray]

/-- An array whose four elements all have bytes is the array of those bytes. -/
theorem eq_colorArray_of_map_colorElem {a : List Elem} {w r g b : Byte}
    (h : a.map colorElem = [some w, some r, some g, some b]) : a = colorArray w r g b := by
  simp only [List.map_eq_cons_iff, List.map_eq_nil_iff] at h
  obtain ⟨ew, _, rfl, hw, er, _, rfl, hr, eg, _, rfl, hg, eb, _, rfl, hb, rfl⟩ := h
  rw [colorElem_eq_some hw, colorElem_eq_some hr, colorElem_eq_some hg, colorElem_eq_some hb, colorArray]

/-- One bad element, or a wrong length, makes the whole array zeros. -/
theorem color4_of_not_colorArray {a : List Elem} (h : ¬ ∃ w r g b : Byte, a = colorArray w r g b) :
    color4 a = [0, 0, 0, 0] := by
  unfold color4
  split
  next w r g b hmap => exact absurd ⟨w, r, g, b, eq_colorArray_of_map_colorElem hmap⟩ h
  next => rfl

theorem durationBytes_none : durationBytes none = [0, 0, 0, 0x3F] := by decide

theorem durationBytes_some (t : BitVec 32) :
    durationBytes (some t) = [BitVec.ofNat 8 t.toNat, BitVec.ofNat 8 (t.toNat / 2 ^ 8),
      BitVec.ofNat 8 (t.toNat / 2 ^ 16), BitVec.ofNat 8 (t.toNat / 2 ^ 24)] := by
  simp only [durationBytes, Option.getD_some, extractLsb'_byte, Nat.pow_zero, Nat.div_one]

/-! ### `set_base_color` and `set_temp_color` (R150, R151) -/

theorem exec_setBaseColor_eq_sent {s : State} (hr : s.wasReset = true) (a : List Elem) :
    exec (.setBaseColor a) s = .next (sent 0x04 (color4 a) s) := by
  rw [exec_setBaseColor, issue_eq_sent hr (by decide) (by simp [length_color4])]

/-- Settles O40: the command sends `color4` of its array, which is the array's bytes or four zeros. -/
theorem baseColorRule : Obligations.BaseColorRule := by
  intro s hr
  refine ⟨fun w r g b => ?_, fun a ha => ?_⟩
  · rw [exec_setBaseColor_eq_sent hr, color4_colorArray]
  · rw [exec_setBaseColor_eq_sent hr, color4_of_not_colorArray ha]

theorem exec_setTempColor_eq_sent {s : State} (hr : s.wasReset = true) (a : List Elem) (t : Option (BitVec 32)) :
    exec (.setTempColor a t) s = .next (sent 0x05 (color4 a ++ durationBytes t) s) := by
  rw [exec_setTempColor, issue_eq_sent hr (by decide) (by simp [length_color4, durationBytes])]

/-- Settles O41: the command sends `color4` of its array and then the duration's bytes, each known apart. -/
theorem tempColorRule : Obligations.TempColorRule := by
  intro s t hr
  refine ⟨fun w r g b => ⟨?_, ?_⟩, fun a ha => ⟨?_, ?_⟩⟩
  · rw [exec_setTempColor_eq_sent hr, color4_colorArray, durationBytes_none]; rfl
  · rw [exec_setTempColor_eq_sent hr, color4_colorArray, durationBytes_some]; rfl
  · rw [exec_setTempColor_eq_sent hr, color4_of_not_colorArray ha, durationBytes_none]; rfl
  · rw [exec_setTempColor_eq_sent hr, color4_of_not_colorArray ha, durationBytes_some]; rfl

/-! ### `set_servo_open_close` (R146) -/

section
variable {servo : Int} {action : String}

theorem servoOpenClosePayload_of_not_byte (h : ¬ IsByte servo) :
    servoOpenClosePayload servo action = .error .argRange := by
  simp [servoOpenClosePayload, byteArg_of_not_range h, bind, Except.bind]

theorem servoOpenClosePayload_open (h : IsByte servo) :
    servoOpenClosePayload servo "open" = .ok [BitVec.ofInt 8 servo, 0x96] := by
  simp [servoOpenClosePayload, byteArg_of_range h, bind, Except.bind]

theorem servoOpenClosePayload_close (h : IsByte servo) :
    servoOpenClosePayload servo "close" = .ok [BitVec.ofInt 8 servo, 0x64] := by
  simp [servoOpenClosePayload, byteArg_of_range h, bind, Except.bind]

theorem servoOpenClosePayload_of_bad_action (h : IsByte servo) (ho : action ≠ "open") (hc : action ≠ "close") :
    servoOpenClosePayload servo action = .error .badAction := by
  simp [servoOpenClosePayload, byteArg_of_range h, ho, hc, bind, Except.bind]

end

/-- Settles O36: one payload equation for the servo check and one for each kind of action. -/
theorem servoOpenCloseRule : Obligations.ServoOpenCloseRule := by
  intro servo action s hr
  refine ⟨fun hb => ?argRange, fun hb ha => ?opening, fun hb ha => ?closing, fun hb ho hc => ?badAction⟩
  case argRange => rw [exec_setServoOpenClose, servoOpenClosePayload_of_not_byte hb, issue_eq_dropped hr]
  case opening =>
    rw [ha, exec_setServoOpenClose, servoOpenClosePayload_open hb, issue_eq_sent hr (by decide) (by simp)]
  case closing =>
    rw [ha, exec_setServoOpenClose, servoOpenClosePayload_close hb, issue_eq_sent hr (by decide) (by simp)]
  case badAction =>
    rw [exec_setServoOpenClose, servoOpenClosePayload_of_bad_action hb ho hc, issue_eq_dropped hr]

/-! ### The commands with integer arguments only (R152 to R155) -/

theorem reversedPairRule_of_issue {mk : Int → Int → Instr} {cmd : CmdName} {op : Byte} (hop : op.toNat ≤ 15)
    (hexec : ∀ s m n, exec (mk m n) s = issue cmd op (reversedPairPayload m n) s) : ReversedPairRule mk cmd op := by
  intro first second s hr
  refine ⟨fun hf hs => ?_, fun h => ?_⟩
  · rw [hexec, reversedPairPayload_of_range hf hs, issue_eq_sent hr hop (by simp)]
  · rw [hexec, reversedPairPayload_of_not_range h, issue_eq_dropped hr]

/-- Settles O42: both commands issue the reversed pair, under opcodes 0x06 and 0x07. -/
theorem reversedPairRules : Obligations.ReversedPairRules :=
  ⟨reversedPairRule_of_issue (by decide) exec_setPixelCycle,
    reversedPairRule_of_issue (by decide) exec_setTriggerSwitch⟩

theorem switchRule_of_issue {mk : Int → Instr} {cmd : CmdName} {op : Byte} (hop : op.toNat ≤ 15)
    (hexec : ∀ s n, exec (mk n) s = issue cmd op (indexPayload n) s) : SwitchRule mk cmd op := by
  intro which s hr
  refine ⟨fun h => ?_, fun h => ?_⟩
  · rw [hexec, indexPayload_of_range h, issue_eq_sent hr hop (by simp)]
  · rw [hexec, indexPayload_of_not_range h, issue_eq_dropped hr]

/-- Settles O43: both commands issue their index, under opcodes 0x08 and 0x09. -/
theorem switchRules : Obligations.SwitchRules :=
  ⟨switchRule_of_issue (by decide) exec_setSwitchOn, switchRule_of_issue (by decide) exec_setSwitchOff⟩

/-! ### The commands without operands (R156 to R160) -/

/-- A command without operands sends or logs the one frame its opcode has. -/
theorem opcodeOnlyRule_of_issue {i : Instr} {cmd : CmdName} {op : Byte} {f : List Byte} (hop : op.toNat ≤ 15)
    (hexec : ∀ s, exec i s = issue cmd op (.ok []) s) (hf : buildFrame 0x3C op [] = f) : OpcodeOnlyRule i f := by
  intro s hr
  have hsent : exec i s = .next (sent op [] s) := by rw [hexec, issue_eq_sent hr hop (by simp)]
  refine ⟨fun hdry => ?_, fun hdry => ?_⟩
  · rw [hsent, sent_of_not_dry hdry, hf]
  · rw [hsent, sent_of_dry hdry, hf]

/-- Settles O44: each printed frame is the built frame of its opcode, computed by the kernel as the model's tests
are, since six CRC steps exceed the elaborator's recursion limit. -/
theorem opcodeOnlyRules : Obligations.OpcodeOnlyRules :=
  ⟨opcodeOnlyRule_of_issue (by decide) exec_setLaserOn (by decide +kernel),
    opcodeOnlyRule_of_issue (by decide) exec_setLaserOff (by decide +kernel),
    opcodeOnlyRule_of_issue (by decide) exec_requestThermalReading (by decide +kernel),
    opcodeOnlyRule_of_issue (by decide) exec_resetVrcPeriph (by decide +kernel),
    opcodeOnlyRule_of_issue (by decide) exec_checkServoController (by decide +kernel)⟩

end Sys2Proof.Safety

/-! PROOFS. The decoder of 43_decoder.md: the step of each of its states on a byte (R182 to R189), what a byte can
do to a partial frame (R198), and polls (R196). -/

namespace Sys2Proof.Safety

open Sys2Proof Sys2Proof.Machine

/-! ### The decoder's step, state by state -/

section
variable {P : Params} {d : Decoder} {b : Byte}

theorem decoderStep_seekMark (h : d.dstate = .seekMark) : decoderStep P d b = (seekMarkArm d b, []) := by
  simp only [decoderStep, h]

theorem seekMarkArm_mark (d : Decoder) : seekMarkArm d 0x24 = { d with dcrc := 0x5A, dstate := .seekP } := by
  have h5A : crcStep 0 0x24 = 0x5A := by decide
  rw [seekMarkArm, if_pos rfl, h5A]

theorem seekMarkArm_of_ne (d : Decoder) (hb : b ≠ 0x24) : seekMarkArm d b = d := if_neg hb

theorem decoderStep_seekP_mark (h : d.dstate = .seekP) (hb : b = 0x50) :
    decoderStep P d b = ({ d with dcrc := crcStep d.dcrc b, dstate := .seekD }, []) := by
  simp only [decoderStep, h, if_pos hb]

theorem decoderStep_seekP_abort (h : d.dstate = .seekP) (hb : b ≠ 0x50) :
    decoderStep P d b = abort P .badMark b := by
  simp only [decoderStep, h, if_neg hb]

theorem decoderStep_seekD_dir (h : d.dstate = .seekD) (hb : b = 0x3E) :
    decoderStep P d b = ({ d with dcrc := crcStep d.dcrc b, dstate := .lenHi }, []) := by
  simp only [decoderStep, h, if_pos hb]

theorem decoderStep_seekD_abort (h : d.dstate = .seekD) (hb : b ≠ 0x3E) :
    decoderStep P d b = abort P .badDir b := by
  simp only [decoderStep, h, if_neg hb]

theorem decoderStep_lenHi (h : d.dstate = .lenHi) :
    decoderStep P d b = ({ d with dhi := b, dcrc := crcStep d.dcrc b, dstate := .lenLo }, []) := by
  simp only [decoderStep, h]

/-- The big-endian pair fits 16 bits (20_memory.md R53). -/
theorem joinBytes_eq_ofNat (hi lo : Byte) : joinBytes hi lo = BitVec.ofNat 16 (hi.toNat * 256 + lo.toNat) := by
  rw [← joinBytes_toNat, BitVec.ofNat_toNat, BitVec.setWidth_eq]

theorem joinBytes_eq_zero_iff (hi lo : Byte) : joinBytes hi lo = 0 ↔ hi.toNat * 256 + lo.toNat = 0 := by
  rw [← joinBytes_toNat, ← BitVec.toNat_inj, BitVec.ofNat_eq_ofNat, BitVec.toNat_ofNat, Nat.zero_mod]

theorem decoderStep_lenLo_zero (h : d.dstate = .lenLo) (hL : d.dhi.toNat * 256 + b.toNat = 0) :
    decoderStep P d b = abort P .badLen b := by
  simp only [decoderStep, h, if_pos ((joinBytes_eq_zero_iff _ _).mpr hL)]

theorem decoderStep_lenLo_tooLong (h : d.dstate = .lenLo) (h0 : d.dhi.toNat * 256 + b.toNat ≠ 0)
    (hL : P.rxMaxLen < d.dhi.toNat * 256 + b.toNat) : decoderStep P d b = abort P .lenTooLong b := by
  simp only [decoderStep, h, if_neg (mt (joinBytes_eq_zero_iff _ _).mp h0), joinBytes_toNat, if_pos hL]

theorem decoderStep_lenLo_ok (h : d.dstate = .lenLo) (h0 : d.dhi.toNat * 256 + b.toNat ≠ 0)
    (hL : d.dhi.toNat * 256 + b.toNat ≤ P.rxMaxLen) :
    decoderStep P d b =
      ({ d with dlen := joinBytes d.dhi b, dcrc := crcStep d.dcrc b, dstate := .bodyOp }, []) := by
  simp only [decoderStep, h, if_neg (mt (joinBytes_eq_zero_iff _ _).mp h0), joinBytes_toNat,
    if_neg (Nat.not_lt.mpr hL)]

theorem decoderStep_bodyOp_abort (h : d.dstate = .bodyOp) (hb : 15 < b.toNat) :
    decoderStep P d b = abort P .badOpcode b := by
  simp only [decoderStep, h, if_pos hb]

theorem decoderStep_bodyOp_ok (h : d.dstate = .bodyOp) (hb : b.toNat ≤ 15) :
    decoderStep P d b =
      ({ d with
          dop := b, dcrc := crcStep d.dcrc b, dbuf := [], dcnt := d.dlen - 1
          dstate := if d.dlen = 1 then .rxCrc else .payload }, []) := by
  simp only [decoderStep, h, if_neg (Nat.not_lt.mpr hb), sub_eq_zero]

theorem decoderStep_payload (h : d.dstate = .payload) :
    decoderStep P d b =
      ({ d with
          dbuf := d.dbuf ++ [b], dcrc := crcStep d.dcrc b, dcnt := d.dcnt - 1
          dstate := if d.dcnt = 1 then .rxCrc else .payload }, []) := by
  simp only [decoderStep, h, sub_eq_zero]

theorem crcOk_eq_decide (d : Decoder) (b : Byte) : crcOk d b = decide (b = d.dcrc) := rfl

theorem decoderStep_rxCrc_abort (h : d.dstate = .rxCrc) (hv : P.verifyCrc = true) (hb : b ≠ d.dcrc) :
    decoderStep P d b = abort P .badCrc b := by
  simp [decoderStep, h, hv, crcOk_eq_decide, hb]

theorem decoderStep_rxCrc_accept (h : d.dstate = .rxCrc) (hok : P.verifyCrc = false ∨ b = d.dcrc) :
    decoderStep P d b = (Decoder.idle, frameRecords d.dop d.dbuf (decide (b = d.dcrc)) b) := by
  have hpass : ¬ (P.verifyCrc && !decide (b = d.dcrc)) = true := by
    rcases hok with hv | hb
    · simp [hv]
    · simp [hb]
  simp only [decoderStep, h, crcOk_eq_decide, if_neg hpass, acceptRecords_eq]

/-- After the opcode and after a payload byte the frame is in RX_CRC or in PAYLOAD, so it has not ended. -/
theorem rxCrc_or_payload_ne (last : Prop) [Decidable last] :
    (if last then DState.rxCrc else .payload) ≠ .seekMark ∧ (if last then DState.rxCrc else .payload) ≠ .seekP := by
  split
  · exact ⟨nofun, nofun⟩
  · exact ⟨nofun, nofun⟩

/-- A byte of a partial frame goes on with it silently, aborts it, or completes it. -/
theorem decoderStep_cases (P : Params) (b : Byte) (h : d.dstate ≠ .seekMark) :
    (∃ d', decoderStep P d b = (d', []) ∧ d'.dstate ≠ .seekMark ∧ d'.dstate ≠ .seekP) ∨
    (∃ code, decoderStep P d b = abort P code b) ∨
    (d.dstate = .rxCrc ∧
      decoderStep P d b = (Decoder.idle, frameRecords d.dop d.dbuf (decide (b = d.dcrc)) b)) := by
  cases hs : d.dstate with
  | seekMark => exact absurd hs h
  | seekP =>
    by_cases hb : b = 0x50
    · exact .inl ⟨_, decoderStep_seekP_mark hs hb, nofun, nofun⟩
    · exact .inr (.inl ⟨_, decoderStep_seekP_abort hs hb⟩)
  | seekD =>
    by_cases hb : b = 0x3E
    · exact .inl ⟨_, decoderStep_seekD_dir hs hb, nofun, nofun⟩
    · exact .inr (.inl ⟨_, decoderStep_seekD_abort hs hb⟩)
  | lenHi => exact .inl ⟨_, decoderStep_lenHi hs, nofun, nofun⟩
  | lenLo =>
    by_cases h0 : d.dhi.toNat * 256 + b.toNat = 0
    · exact .inr (.inl ⟨_, decoderStep_lenLo_zero hs h0⟩)
    by_cases hL : d.dhi.toNat * 256 + b.toNat ≤ P.rxMaxLen
    · exact .inl ⟨_, decoderStep_lenLo_ok hs h0 hL, nofun, nofun⟩
    · exact .inr (.inl ⟨_, decoderStep_lenLo_tooLong hs h0 (Nat.lt_of_not_le hL)⟩)
  | bodyOp =>
    by_cases hb : b.toNat ≤ 15
    · exact .inl ⟨_, decoderStep_bodyOp_ok hs hb, rxCrc_or_payload_ne _⟩
    · exact .inr (.inl ⟨_, decoderStep_bodyOp_abort hs (Nat.lt_of_not_le hb)⟩)
  | payload => exact .inl ⟨_, decoderStep_payload hs, rxCrc_or_payload_ne _⟩
  | rxCrc =>
    by_cases hok : P.verifyCrc = false ∨ b = d.dcrc
    · exact .inr (.inr ⟨rfl, decoderStep_rxCrc_accept hs hok⟩)
    · obtain ⟨hv, hb⟩ := not_or.mp hok
      exact .inr (.inl ⟨_, decoderStep_rxCrc_abort hs (eq_true_of_ne_false hv) hb⟩)

end

/-! ### RX_BYTE as a record of decode failures (R198) -/

/-- Settles O24: the decoder and the records are its step's, and a byte that goes on with the frame leads to
neither SEEK_MARK nor SEEK_P, so a byte that ends it aborted or completed it. -/
theorem decodeFailuresAreRecords : Obligations.DecodeFailuresAreRecords := by
  intro b s
  refine ⟨fun hr => by rw [exec_rxByte, portOp_of_not_reset hr], fun hr => ?_⟩
  obtain ⟨d, es, hstep⟩ : ∃ d es, decoderStep s.params s.dec b = (d, es) := ⟨_, _, rfl⟩
  refine ⟨d, es, exec_rxByte_eq hr hstep, fun hpartial hended => ?_⟩
  obtain ⟨d', hd, hMark, hP⟩ | ⟨code, hd⟩ | ⟨hs, hd⟩ := decoderStep_cases s.params b hpartial
  · cases hstep.symm.trans hd
    exact absurd hended (not_or.mpr ⟨hMark, hP⟩)
  · exact .inl ⟨code, congrArg Prod.snd (hstep.symm.trans hd)⟩
  · exact .inr ⟨hs, congrArg Prod.snd (hstep.symm.trans hd)⟩

/-! ### Polls (R196) -/

theorem pollOps_append (a b : List Byte) : pollOps (a ++ b) = pollOps a ++ pollOps b := List.map_append

/-- The decoder's step on a partial frame and the records emitted so far. -/
def foldDecoderStep (P : Params) (x : Decoder × List Event) (b : Byte) : Decoder × List Event :=
  ((decoderStep P x.1 b).1, x.2 ++ (decoderStep P x.1 b).2)

/-- RX_BYTEs write the decoder and the records only, so their effect is a fold over those two. -/
theorem rxAll_eq_foldl (bs : List Byte) (s : State) :
    rxAll bs s = { s with
      dec := (bs.foldl (foldDecoderStep s.params) (s.dec, s.events)).1
      events := (bs.foldl (foldDecoderStep s.params) (s.dec, s.events)).2 } := by
  induction bs generalizing s with
  | nil => rfl
  | cons b bs ih => rw [rxAll_cons, ih]; rfl

/-- Settles O26: a poll is a list of RX_BYTEs, and after RESET their effect is the fold of the decoder's step. -/
theorem pollSplitDoesNotMatter : Obligations.PollSplitDoesNotMatter := by
  refine ⟨runInstrs_nil, fun b bs s => rfl, fun a b s t h => ?split, fun a s hr x hx => ?fold⟩
  case split => rw [pollOps_append, runInstrs_append_of_next h]
  case fold =>
    rw [runInstrs_poll hr, rxAll_eq_foldl, hx]
    rfl

/-! ### RX_BYTE, state by state -/

/-- A byte that emits nothing changes the decoder only. -/
theorem exec_rxByte_silent {b : Byte} {s : State} (hr : s.wasReset = true) {d : Decoder}
    (hd : decoderStep s.params s.dec b = (d, [])) : exec (.rxByte b) s = .next { s with dec := d } := by
  rw [exec_rxByte_eq hr hd, List.append_nil]

/-- Settles O19: each header byte is one equation of the decoder's step. -/
theorem headerArms : Obligations.HeaderArms := by
  intro b s hr
  refine ⟨fun hs hb => ?mark, fun hs hb => ?noise,
    fun hs hb => exec_rxByte_silent hr (decoderStep_seekP_mark hs hb),
    fun hs hb => exec_rxByte_abort hr (decoderStep_seekP_abort hs hb),
    fun hs hb => exec_rxByte_silent hr (decoderStep_seekD_dir hs hb),
    fun hs hb => exec_rxByte_abort hr (decoderStep_seekD_abort hs hb)⟩
  case mark => rw [exec_rxByte_silent hr (decoderStep_seekMark hs), hb, seekMarkArm_mark]
  case noise => rw [exec_rxByte_silent hr (decoderStep_seekMark hs), seekMarkArm_of_ne _ hb]

/-- Settles O20: the 16-bit length the decoder joins is the number `L`, since two bytes never overflow it. -/
theorem lengthArms : Obligations.LengthArms := by
  intro b s hr
  refine ⟨fun hs => exec_rxByte_silent hr (decoderStep_lenHi hs), ?_⟩
  rintro hs L rfl
  refine ⟨fun h0 => exec_rxByte_abort hr (decoderStep_lenLo_zero hs h0),
    fun h0 hL => exec_rxByte_abort hr (decoderStep_lenLo_tooLong hs h0 hL), fun h0 hL => ?_⟩
  rw [exec_rxByte_silent hr (decoderStep_lenLo_ok hs h0 hL), joinBytes_eq_ofNat]

/-- Settles O21: the opcode check and the payload byte are equations of the decoder's step. -/
theorem bodyArms : Obligations.BodyArms := by
  intro b s hr
  exact ⟨fun hs hb => exec_rxByte_abort hr (decoderStep_bodyOp_abort hs hb),
    fun hs hb => exec_rxByte_silent hr (decoderStep_bodyOp_ok hs hb),
    fun hs => exec_rxByte_silent hr (decoderStep_payload hs)⟩

/-- Settles O22: a byte the policy rejects aborts, and any other completes the frame with its records. -/
theorem checksumArm : Obligations.ChecksumArm := by
  intro b s hr hs
  exact ⟨fun hv hb => exec_rxByte_abort hr (decoderStep_rxCrc_abort hs hv hb),
    fun hok => exec_rxByte_eq hr (decoderStep_rxCrc_accept hs hok)⟩

end Sys2Proof.Safety

/-! PROOFS. SET_DRY of 44_control.md: the operation, the frame ENCODE then logs, and the operations that do not
look at DRY (R221). -/

namespace Sys2Proof.Safety

open Sys2Proof Sys2Proof.Machine

/-- SET_DRY is op-select code 1, whatever its argument byte is (R81, R221). -/
theorem decode_port_setDry (arg : Byte) : decode (.port (commandWord 1 arg) []) = .ok (.setDry arg) := by
  simp [decode, decodePort, withoutPayload]

theorem exec_setDry_of_reset {s : State} (h : s.wasReset = true) (arg : Byte) :
    exec (.setDry arg) s = .next { s with ctrlDry := arg.getLsbD 0 } := by
  rw [exec_setDry, portOp_of_reset h, State.setDry, dryBit]

/-- An ENCODE right after SET_DRY 1 logs its frame (R122, R221). -/
theorem runInstrs_setDry_encode {op : Byte} {p : List Byte} {s : State} (hr : s.wasReset = true)
    (hop : op.toNat ≤ 15) (hlen : p.length ≤ 65534) :
    runInstrs [.setDry 1, .encode op p] s = .next { s with
      ctrlDry := true
      events := s.events ++ [.txDryFrame (buildFrame 0x3C op p)] } := by
  have hset : exec (.setDry 1) s = .next (s.setDry true) := exec_setDry_of_reset hr 1
  have hencode : exec (.encode op p) (s.setDry true) = .next (sent op p (s.setDry true)) :=
    exec_encode_eq_sent hr hop hlen
  rw [runInstrs_cons_of_next hset, runInstrs_cons_of_next hencode, runInstrs_nil, sent_of_dry rfl]
  rfl

/-- The one frame of opcode 0x0A without a payload, computed by the kernel as the model's tests are. -/
theorem buildFrame_0A_nil : buildFrame 0x3C 0x0A [] = [0x24, 0x50, 0x3C, 0x00, 0x01, 0x0A, 0xCE] := by
  decide +kernel

/-- Settles O32: the word is op-select code 1, the operation is a write of DRY behind the NotReset check, and the
effects of RX_BYTE and of the CRC port commute with that write. -/
theorem setDryRule : Obligations.SetDryRule := by
  refine ⟨fun arg s => ⟨?word, fun hr => exec_setDry_of_reset hr arg, fun hr => ?notReset, fun hr => ?dryFrame⟩,
    fun i d s hi => ?bothModes⟩
  case word =>
    have hword : 0x100#11 ||| arg.setWidth 11 = commandWord 1 arg := shifted_or_arg 1 arg
    rw [hword, decode_port_setDry]
  case notReset => rw [exec_setDry, portOp_of_not_reset hr]
  case dryFrame => rw [runInstrs_setDry_encode hr (by decide) (by simp), buildFrame_0A_nil]
  case bothModes =>
    obtain ⟨b, rfl⟩ | ⟨a, rfl⟩ | ⟨b, rfl⟩ | ⟨a, rfl⟩ := hi
    · exact portOp_map (fun t => t.setDry d) (rxEffect b) s rfl rfl
    · exact portOp_map (fun t => t.setDry d) (fun t => t.setCrc 0) s rfl rfl
    · exact portOp_map (fun t => t.setDry d) (fun t => t.setCrc (crcStep t.crc b)) s rfl rfl
    · exact portOp_map (fun t => t.setDry d) (fun t => t.putResult t.crc) s rfl rfl

end Sys2Proof.Safety

/-! PROOFS. The exceptions of 60_exceptions.md: the one fault (R240, R241) and the codes of the records (R242,
R243). -/

namespace Sys2Proof.Safety

open Sys2Proof Sys2Proof.Machine

/-! ### The one fault -/

/-- A formatter command that faults had not been allowed, whatever its payload's checks say. -/
theorem notReset_of_formatter_fault {i : Instr} {cmd : CmdName} {op : Byte} {s : State} {x : Fault}
    (hf : formatterOp i = some (cmd, op)) (h : exec i s = .fault x) : s.wasReset = false ∧ x = .notReset := by
  obtain ⟨q, -, -, -, hissue⟩ := exec_formatter hf s.params
  exact portOp_eq_fault ((hissue s rfl).symm.trans h)

/-- A frame of opcode 0x0F faults only at the NotReset check; one too long to exist is refused and does not fault. -/
theorem notReset_of_sendThermalReading_fault {d : Direction} {p : List Byte} {s : State} {x : Fault}
    (h : exec (.sendThermalReading d p) s = .fault x) : s.wasReset = false ∧ x = .notReset := by
  cases d with
  | hostToDevice => exact portOp_eq_fault ((exec_sendThermalReading_out s p).symm.trans h)
  | deviceToHost =>
    by_cases hp : p.length ≤ 65534
    · exact portOp_eq_fault ((exec_sendThermalReading_in s hp).symm.trans h)
    · rw [exec_sendThermalReading_none s (Nat.lt_of_not_le hp)] at h
      cases h

/-- An operation that is no formatter command faults only at the NotReset check, and RESET has none. -/
theorem notReset_of_not_formatter_fault {i : Instr} {s : State} {x : Fault} (hf : formatterOp i = none)
    (h : exec i s = .fault x) : s.wasReset = false ∧ x = .notReset := by
  cases i <;> cases hf
  case reset a => cases h
  case setDry a => exact portOp_eq_fault ((exec_setDry s a).symm.trans h)
  case crcClear a => exact portOp_eq_fault ((exec_crcClear s a).symm.trans h)
  case crcFeed d => exact portOp_eq_fault ((exec_crcFeed s d).symm.trans h)
  case crcRead a => exact portOp_eq_fault ((exec_crcRead s a).symm.trans h)
  case encode op p => exact portOp_eq_fault ((exec_encode s op p).symm.trans h)
  case rxByte b => exact portOp_eq_fault ((exec_rxByte s b).symm.trans h)
  case readStatus a => exact portOp_eq_fault ((exec_readStatus s a).symm.trans h)
  case sendThermalReading d p => exact notReset_of_sendThermalReading_fault h

/-- Any fault of any operation is NotReset, before the first RESET (R240). -/
theorem notReset_of_exec_fault {i : Instr} {s : State} {x : Fault} (h : exec i s = .fault x) :
    s.wasReset = false ∧ x = .notReset := by
  cases hf : formatterOp i with
  | some c => exact notReset_of_formatter_fault hf h
  | none => exact notReset_of_not_formatter_fault hf h

/-- Settles O34: each port operation but RESET is its effect behind the NotReset check, which is also the only
place where an operation can fault. -/
theorem notResetIsTheOneFault : Obligations.NotResetIsTheOneFault := by
  refine ⟨fun s hr => ?beforeReset, fun i s f h => (notReset_of_exec_fault h).symm⟩
  have hfault (g : State → State) : portOp g s = .fault .notReset := portOp_of_not_reset hr
  exact ⟨fun a => (exec_setDry s a).trans (hfault _), fun a => (exec_crcClear s a).trans (hfault _),
    fun d => (exec_crcFeed s d).trans (hfault _), fun a => (exec_crcRead s a).trans (hfault _),
    fun op p => (exec_encode s op p).trans (hfault _), fun b => (exec_rxByte s b).trans (hfault _),
    fun a => (exec_readStatus s a).trans (hfault _), fun a => ⟨s.doReset, exec_reset s a⟩⟩

/-! ### The records' codes -/

/-- The code column of R242. -/
def errorCodes : List Byte := [0x01, 0x02, 0x03, 0x04, 0x05, 0x06, 0x07, 0x10, 0x11, 0x20]

theorem rxCode_code_mem_errorCodes (k : RxCode) : k.code ∈ errorCodes := by cases k <;> decide

theorem txCode_code_mem_errorCodes (k : TxCode) : k.code ∈ errorCodes := by cases k <;> decide

/-- A record that has a code has one of the ten; the results have none (R243). -/
theorem mem_errorCodes_of_event_code {e : Event} {c : Byte} (h : e.code = some c) : c ∈ errorCodes := by
  cases e <;> cases h
  case rxDiscard k b => exact rxCode_code_mem_errorCodes k
  case txError k op n => exact txCode_code_mem_errorCodes k
  case cmdDropped cmd r => decide

/-- Settles O53: the codes are the values of `Event.code`, and no record's code lies outside `errorCodes`. -/
theorem eventCodes : Obligations.EventCodes :=
  ⟨fun _ => ⟨rfl, rfl, rfl, rfl, rfl, rfl, rfl⟩, fun _ _ => ⟨rfl, rfl⟩, fun _ _ => rfl, fun _ _ _ => rfl,
    fun _ => rfl, fun _ => rfl, fun _ _ => mem_errorCodes_of_event_code⟩

end Sys2Proof.Safety

/-! PROOFS. The operations' encodings of 30_encoding.md: the port words (R80, R81), the commands' requests (R75,
R85), and that decoder and encoder are inverse to each other. -/

namespace Sys2Proof.Safety

open Sys2Proof Sys2Proof.Machine

/-! ### The port words -/

/-- RESET is op-select code 0, whatever its argument byte is (R81, R220). -/
theorem decode_port_reset (arg : Byte) : decode (.port (commandWord 0 arg) []) = .ok (.reset arg) := by
  simp [decode, decodePort, withoutPayload]

/-- CRC_READ is op-select code 4, whatever its argument byte is (R81, R106). -/
theorem decode_port_crcRead (arg : Byte) : decode (.port (commandWord 4 arg) []) = .ok (.crcRead arg) := by
  simp [decode, decodePort, withoutPayload]

/-- RX_BYTE is op-select code 6 above the received byte (R81, R181). -/
theorem decode_port_rxByte (b : Byte) : decode (.port (commandWord 6 b) []) = .ok (.rxByte b) := by
  simp [decode, decodePort, withoutPayload]

/-- READ_STATUS is op-select code 7, whatever its argument byte is (R81, R222). -/
theorem decode_port_readStatus (arg : Byte) : decode (.port (commandWord 7 arg) []) = .ok (.readStatus arg) := by
  simp [decode, decodePort, withoutPayload]

/-- An operation without a payload is accepted with an empty payload only (R80). -/
theorem withoutPayload_eq_ok {p : List Byte} {i j : Instr} (h : withoutPayload p i = .ok j) : p = [] ∧ j = i := by
  unfold withoutPayload at h
  split at h
  next hp => cases h; exact ⟨List.isEmpty_iff.mp hp, rfl⟩
  next => cases h

/-- A word whose op-select code is known is that code above its argument byte. -/
theorem port_commandWord_of_opSelect {w : BitVec 11} {n : Nat} (h : (opSelect w).toNat = n) (p : List Byte) :
    Request.port (commandWord (BitVec.ofNat 3 n) (argByte w)) p = .port w p := by
  rw [← h, BitVec.ofNat_toNat, BitVec.setWidth_eq, commandWord_fields]

/-- What the port decoder accepts: the well-formed operation whose word it is, with no payload unless the word is
ENCODE's (R80). -/
theorem decodePort_eq_ok {w : BitVec 11} {p : List Byte} {i : Instr} (h : decodePort w p = .ok i) :
    encode i = .port w p ∧ i.WellFormed = true ∧ (p = [] ∨ p.length ≤ 65535 ∧ ∃ op, i = .encode op p) := by
  unfold decodePort at h
  split at h
  case h_6 hop =>
    split at h
    next hp =>
      cases h
      exact ⟨port_commandWord_of_opSelect hop _, decide_eq_true hp, .inr ⟨hp, _, rfl⟩⟩
    next => cases h
  case h_8 h0 h1 h2 h3 h4 h5 h6 =>
    obtain ⟨rfl, rfl⟩ := withoutPayload_eq_ok h
    have hop : (opSelect w).toNat = 7 := by
      have hlt := (opSelect w).isLt
      simp only [imp_false] at h0 h1 h2 h3 h4 h5 h6
      omega
    exact ⟨port_commandWord_of_opSelect hop _, rfl, .inl rfl⟩
  all_goals
    rename_i hop
    obtain ⟨rfl, rfl⟩ := withoutPayload_eq_ok h
    exact ⟨port_commandWord_of_opSelect hop _, rfl, .inl rfl⟩

/-- Every word is an operation when it comes without a payload (R81). -/
theorem decodePort_nil_isOk (w : BitVec 11) : ∃ i, decodePort w [] = .ok i := by
  unfold decodePort
  split
  all_goals exact ⟨_, rfl⟩

/-- Settles O3: the eight words are the eight op-select codes, no code is unused, and a payload is ENCODE's. -/
theorem everyCommandWordIsAnOperation : Obligations.EveryCommandWordIsAnOperation := by
  refine ⟨decodePort_nil_isOk, fun a => ?words, fun w p i h hp => ?payload⟩
  case payload =>
    obtain ⟨-, -, hnil | hencode⟩ := decodePort_eq_ok h
    · exact absurd hnil hp
    · exact hencode
  case words =>
    have hword (op : BitVec 3) : (op.setWidth 11 <<< 8) ||| a.setWidth 11 = commandWord op a := shifted_or_arg op a
    exact ⟨(hword 0).symm ▸ decode_port_reset a, (hword 1).symm ▸ decode_port_setDry a,
      (hword 2).symm ▸ decode_port_crcClear a, (hword 3).symm ▸ decode_port_crcFeed a,
      (hword 4).symm ▸ decode_port_crcRead a, (hword 5).symm ▸ decode_port_encode a (Nat.zero_le _),
      (hword 6).symm ▸ decode_port_rxByte a, (hword 7).symm ▸ decode_port_readStatus a⟩

/-! ### Decoder and encoder -/

/-- Settles O1: a port operation's word has its two fields back, and a command's code and arguments select its own
row of the table; the two limits on payloads are those the decoder checks. -/
theorem encodeThenDecode : Obligations.EncodeThenDecode := by
  intro i hwf
  cases i with
  | reset a => exact decode_port_reset a
  | setDry a => exact decode_port_setDry a
  | crcClear a => exact decode_port_crcClear a
  | crcFeed d => exact decode_port_crcFeed d
  | crcRead a => exact decode_port_crcRead a
  | encode op p => exact decode_port_encode op (of_decide_eq_true hwf)
  | rxByte b => exact decode_port_rxByte b
  | readStatus a => exact decode_port_readStatus a
  | setTempColor a t => cases t <;> rfl
  | sendThermalReading d p => exact if_pos hwf
  | _ => rfl

/-- A request whose code is known is that code with the request's arguments. -/
theorem command_ofNat_of_toNat {code : Byte} {n : Nat} (h : code.toNat = n) (args : List Arg) :
    Request.command (BitVec.ofNat 8 n) args = .command code args := by
  rw [← h, BitVec.ofNat_toNat, BitVec.setWidth_eq]

/-- What the command decoder accepts is a well-formed operation, and its request the one the encoder writes. -/
theorem decodeCommand_eq_ok {code : Byte} {args : List Arg} {i : Instr} (h : decodeCommand code args = .ok i) :
    encode i = .command code args ∧ i.WellFormed = true := by
  unfold decodeCommand at h
  split at h
  case h_17 d p hcode =>
    split at h
    next hwf => cases h; exact ⟨command_ofNat_of_toNat hcode _, hwf⟩
    next => cases h
  case h_18 => split at h <;> cases h
  all_goals
    rename_i hcode
    cases h
    exact ⟨command_ofNat_of_toNat hcode _, rfl⟩

/-- Settles O2: a request is a port word or a command, and each decoder accepts only what the encoder writes. -/
theorem decodeThenEncode : Obligations.DecodeThenEncode := by
  intro r i h
  cases r with
  | port w p =>
    obtain ⟨hencode, hwf, -⟩ := decodePort_eq_ok h
    exact ⟨hencode, hwf⟩
  | command code args => exact decodeCommand_eq_ok h

/-- Settles O4: each request is written out, so the decoder computes its operation. -/
theorem specWordsDecode : Obligations.SpecWordsDecode := by
  unfold Obligations.SpecWordsDecode
  decide

end Sys2Proof.Safety

/-! PROOFS. The CRC of 40_crc.md: the spec's printed table (95_test_vectors.md §2.1), the laws of `crc8` (R101 to
R103), CRC_READ (R106) and `crc.fold` (R107). -/

namespace Sys2Proof.Safety

open Sys2Proof Sys2Proof.Machine

/-! ### The table -/

/-- The printed rows are the values of `crc_step(0, i)` in order: 256 closed facts, computed by the kernel. -/
theorem crcTable_eq_map : crcTable = (List.range 256).map fun i => crcStep 0 (BitVec.ofNat 8 i) := by
  decide +kernel

theorem crcTable_getElem? (x : Byte) : crcTable[x.toNat]? = some (crcStep 0 x) := by
  rw [crcTable_eq_map, List.getElem?_map, List.getElem?_range x.isLt, Option.map_some, BitVec.ofNat_toNat,
    BitVec.setWidth_eq]

/-- Settles O8: a step depends on `c xor b` only, and the table holds the steps from 0. -/
theorem crcStepIsTableLookup : Obligations.CrcStepIsTableLookup := by
  intro c b
  rw [crcTable_getElem?, crcStep_eq_zero_xor c b]

/-! ### The laws of `crc8` -/

theorem crc8_append (a b : List Byte) : crc8 (a ++ b) = b.foldl crcStep (crc8 a) := List.foldl_append

/-- One more byte is one more step. -/
theorem crc8_concat (l : List Byte) (b : Byte) : crc8 (l ++ [b]) = crcStep (crc8 l) b := crc8_append l [b]

theorem crcStep_xor (c c' b b' : Byte) : crcStep (c ^^^ c') (b ^^^ b') = crcStep c b ^^^ crcStep c' b' := by
  have hswap : (c ^^^ c') ^^^ (b ^^^ b') = (c ^^^ b) ^^^ (c' ^^^ b') := by ac_rfl
  rw [crcStep, hswap, crcRounds_xor, crcStep, crcStep]

/-- Linearity, with the two registers the folds start from. -/
theorem foldl_crcStep_zipWith_xor {a b : List Byte} (h : a.length = b.length) (c c' : Byte) :
    (List.zipWith (fun x y => x ^^^ y) a b).foldl crcStep (c ^^^ c') = a.foldl crcStep c ^^^ b.foldl crcStep c' := by
  induction a generalizing b c c' with
  | nil => rw [List.length_eq_zero_iff.mp h.symm]; rfl
  | cons x a ih =>
    obtain ⟨y, b, rfl⟩ := List.exists_cons_of_length_eq_add_one h.symm
    rw [List.zipWith_cons_cons, List.foldl_cons, crcStep_xor, ih (Nat.succ.inj h), List.foldl_cons, List.foldl_cons]

/-- Settles O9: `crc8` is a left fold of a linear step that sends equal register and byte to 0. -/
theorem crcLaws : Obligations.CrcLaws := by
  refine ⟨rfl, fun a => ?leadingZero, crc8_append, fun a b h => ?linear, fun a => ?residue⟩
  case leadingZero => rw [crc8, List.foldl_cons, crcStep_self, crc8]
  case linear => exact foldl_crcStep_zipWith_xor h 0 0
  case residue => rw [crc8_concat, crcStep_self]

/-! ### CRC_READ and `crc.fold` -/

theorem exec_crcRead_of_reset {s : State} (h : s.wasReset = true) (arg : Byte) :
    exec (.crcRead arg) s = .next { s with results := s.results ++ [s.crc] } := by
  rw [exec_crcRead, portOp_of_reset h, State.putResult]

/-- Settles O12: the word is op-select code 4, and the operation hands the register's value back behind the NotReset
check, leaving the register for the next read. -/
theorem crcReadRule : Obligations.CrcReadRule := by
  intro arg s
  have hword : 0x400#11 ||| arg.setWidth 11 = commandWord 4 arg := shifted_or_arg 4 arg
  refine ⟨?word, fun hr => exec_crcRead_of_reset hr arg, fun hr => ?twice, fun hr => ?notReset⟩
  case word => rw [hword, decode_port_crcRead]
  case twice =>
    have hagain := exec_crcRead_of_reset (s := { s with results := s.results ++ [s.crc] }) hr arg
    rw [runInstrs_cons_of_next (exec_crcRead_of_reset hr arg), runInstrs_cons_of_next hagain, runInstrs_nil,
      List.append_assoc, List.singleton_append]
  case notReset => rw [exec_crcRead, portOp_of_not_reset hr]

/-- Feeding bytes folds the CRC step over them, from whatever the register holds. -/
theorem runInstrs_map_crcFeed {s : State} (h : s.wasReset = true) (l : List Byte) :
    runInstrs (l.map .crcFeed) s = .next { s with crc := l.foldl crcStep s.crc } := by
  induction l generalizing s with
  | nil => rfl
  | cons b l ih =>
    rw [List.map_cons, runInstrs_cons_of_next (exec_crcFeed_of_reset h b)]
    exact ih (s := { s with crc := crcStep s.crc b }) h

/-- Settles O13: CRC_CLEAR starts the fold at 0. -/
theorem crcFoldComputesCrc8 : Obligations.CrcFoldComputesCrc8 := by
  intro l s hr
  rw [crcFoldOps, runInstrs_cons_of_next (exec_crcClear_of_reset hr 0)]
  exact runInstrs_map_crcFeed (s := { s with crc := 0 }) hr l

end Sys2Proof.Safety

/-! PROOFS. What each operation writes (10_state.md §1, §5, 20_memory.md §3), and when it completes: after RESET
always, before it never but for RESET itself (60_exceptions.md §2, §4, 70_reset_and_hazards.md R272). -/

namespace Sys2Proof.Safety

open Sys2Proof Sys2Proof.Machine

/-! ### What an operation writes -/

/-- What a completed operation leaves in `tx`: what was there, or one whole host frame more. -/
theorem tx_of_did {i : Instr} {s t : State} (h : Did i s t) :
    t.tx = s.tx ∨
    (isEncodeOp i = true ∨ (formatterOp i).isSome = true ∨ ∃ p, i = .sendThermalReading .hostToDevice p) ∧
      ∃ (op : Byte) (p : List Byte), op.toNat ≤ 15 ∧ p.length ≤ 65534 ∧ t.tx = s.tx ++ buildFrame 0x3C op p := by
  cases h with
  | encoded op p hi _ ht =>
    obtain ⟨-, he⟩ | ⟨-, -, he⟩ | ⟨-, -, -, he⟩ | ⟨hop, hlen, -, he⟩ := encodeEffect_cases op p s
    · exact .inl (by rw [ht, he, State.emit_tx])
    · exact .inl (by rw [ht, he, State.emit_tx])
    · exact .inl (by rw [ht, he, State.emit_tx])
    · exact .inr ⟨hi, op, p, hop, hlen, by rw [ht, he, State.txWrite_tx]⟩
  | received bs _ _ ht =>
    obtain ⟨d, es, hd⟩ := rxAll_frame bs s
    exact .inl (by rw [ht, hd])
  | reset _ _ ht | setDry _ _ _ ht | crcClear _ _ _ ht | crcFeed _ _ _ ht | crcRead _ _ _ ht
  | readStatus _ _ _ ht | dropped _ _ _ _ _ _ ht => subst ht; exact .inl rfl

/-- Settles O18: only the frame an ENCODE builds reaches `tx`, and its length is the layout's. -/
theorem txGrowsByWholeFrames : Obligations.TxGrowsByWholeFrames := by
  intro i s t h hne
  obtain ⟨hi, op, p, hop, hlen, htx⟩ := (tx_of_did (did_of_exec h)).resolve_left hne
  exact ⟨hi, op, p, hop, hlen, htx, length_buildFrame _ op p⟩

/-- Settles O49: each arm of what a completed operation can have done writes its own fields; for every other field
the two states agree by computation. -/
theorem operationFrames : Obligations.OperationFrames := by
  intro i s t h
  cases did_of_exec h with
  | reset a hi ht =>
    subst ht
    exact ⟨rfl, rfl, fun _ => ⟨⟨a, hi⟩, rfl⟩, fun _ => .inl ⟨a, hi⟩, fun _ => .inl ⟨a, hi⟩, fun _ => .inl ⟨a, hi⟩,
      absurd rfl, absurd rfl, absurd rfl⟩
  | setDry a hi _ ht =>
    subst ht
    exact ⟨rfl, rfl, absurd rfl, absurd rfl, fun _ => .inr ⟨a, hi⟩, absurd rfl, absurd rfl, absurd rfl, absurd rfl⟩
  | crcClear a hi _ ht =>
    subst ht
    exact ⟨rfl, rfl, absurd rfl, fun _ => .inr (.inl ⟨a, hi⟩), absurd rfl, absurd rfl, absurd rfl, absurd rfl,
      absurd rfl⟩
  | crcFeed d hi _ ht =>
    subst ht
    exact ⟨rfl, rfl, absurd rfl, fun _ => .inr (.inr ⟨d, hi⟩), absurd rfl, absurd rfl, absurd rfl, absurd rfl,
      absurd rfl⟩
  | crcRead a hi _ ht =>
    subst ht
    exact ⟨rfl, rfl, absurd rfl, absurd rfl, absurd rfl, absurd rfl, fun _ => .inl ⟨a, hi⟩, absurd rfl, absurd rfl⟩
  | readStatus a hi _ ht =>
    subst ht
    exact ⟨rfl, rfl, absurd rfl, absurd rfl, absurd rfl, absurd rfl, fun _ => .inr ⟨a, hi⟩, absurd rfl, absurd rfl⟩
  | encoded op p hi _ ht =>
    obtain ⟨bs, es, he⟩ := encodeEffect_frame op p s
    subst ht
    rw [he]
    refine ⟨rfl, rfl, absurd rfl, absurd rfl, absurd rfl, absurd rfl, absurd rfl, fun _ => hi, fun _ => ?_⟩
    obtain hi | hi | ⟨q, hi⟩ := hi
    · exact .inl hi
    · exact .inr (.inr (.inl hi))
    · exact .inr (.inr (.inr ⟨_, q, hi⟩))
  | dropped cmd op r hi _ _ ht =>
    subst ht
    exact ⟨rfl, rfl, absurd rfl, absurd rfl, absurd rfl, absurd rfl, absurd rfl, absurd rfl,
      fun _ => .inr (.inr (.inl (Option.isSome_of_eq_some hi)))⟩
  | received bs hi _ ht =>
    obtain ⟨d, es, hd⟩ := rxAll_frame bs s
    subst ht
    rw [hd]
    obtain ⟨b, rfl, -⟩ | ⟨p, rfl⟩ := hi
    · exact ⟨rfl, rfl, absurd rfl, absurd rfl, absurd rfl, fun _ => .inr (.inl ⟨b, rfl⟩), absurd rfl, absurd rfl,
        fun _ => .inr (.inl rfl)⟩
    · exact ⟨rfl, rfl, absurd rfl, absurd rfl, absurd rfl, fun _ => .inr (.inr ⟨p, rfl⟩), absurd rfl, absurd rfl,
        fun _ => .inr (.inr (.inr ⟨_, p, rfl⟩))⟩

theorem params_of_exec {i : Instr} {s t : State} (h : exec i s = .next t) : t.params = s.params :=
  (operationFrames i s t h).1

theorem port_of_exec {i : Instr} {s t : State} (h : exec i s = .next t) : t.port = s.port :=
  (operationFrames i s t h).2.1

/-- A codec that has been reset stays so. -/
theorem wasReset_of_exec {i : Instr} {s t : State} (h : exec i s = .next t) (hr : s.wasReset = true) :
    t.wasReset = true := by
  obtain ⟨-, -, hchange, -⟩ := operationFrames i s t h
  by_cases heq : t.wasReset = s.wasReset
  · rw [heq, hr]
  · exact (hchange heq).2

/-! ### When an operation completes -/

/-- A port operation but RESET, and a frame of opcode 0x0F that exists, is an effect behind the NotReset check. -/
theorem exec_not_formatter_eq_portOp {i : Instr} (hf : formatterOp i = none) (hwf : i.WellFormed = true) (s : State) :
    (∃ a, i = .reset a) ∨ ∃ g, exec i s = portOp g s := by
  cases i <;> cases hf
  case reset a => exact .inl ⟨a, rfl⟩
  case setDry a => exact .inr ⟨_, exec_setDry s a⟩
  case crcClear a => exact .inr ⟨_, exec_crcClear s a⟩
  case crcFeed d => exact .inr ⟨_, exec_crcFeed s d⟩
  case crcRead a => exact .inr ⟨_, exec_crcRead s a⟩
  case encode op p => exact .inr ⟨_, exec_encode s op p⟩
  case rxByte b => exact .inr ⟨_, exec_rxByte s b⟩
  case readStatus a => exact .inr ⟨_, exec_readStatus s a⟩
  case sendThermalReading d p =>
    cases d with
    | hostToDevice => exact .inr ⟨_, exec_sendThermalReading_out s p⟩
    | deviceToHost => exact .inr ⟨_, exec_sendThermalReading_in s (of_decide_eq_true hwf)⟩

/-- Every well-formed operation but RESET is an effect behind the NotReset check (R240, R272). -/
theorem exec_eq_portOp {i : Instr} (hwf : i.WellFormed = true) (s : State) :
    (∃ a, i = .reset a) ∨ ∃ g, exec i s = portOp g s := by
  cases hf : formatterOp i with
  | none => exact exec_not_formatter_eq_portOp hf hwf s
  | some c =>
    obtain ⟨q, -, -, -, hissue⟩ := exec_formatter hf s.params
    exact .inr ⟨_, hissue s rfl⟩

theorem exec_completes {i : Instr} {s : State} (hwf : i.WellFormed = true) (hr : s.wasReset = true) :
    ∃ t, exec i s = .next t := by
  obtain ⟨a, rfl⟩ | ⟨g, hg⟩ := exec_eq_portOp hwf s
  · exact ⟨_, exec_reset s a⟩
  · exact ⟨_, hg.trans (portOp_of_reset hr)⟩

theorem exec_of_not_reset {i : Instr} {s : State} (hwf : i.WellFormed = true) (hr : s.wasReset = false) :
    (∃ a, i = .reset a) ∨ exec i s = .fault .notReset := by
  obtain hi | ⟨g, hg⟩ := exec_eq_portOp hwf s
  · exact .inl hi
  · exact .inr (hg.trans (portOp_of_not_reset hr))

theorem runInstrs_completes {l : List Instr} {s : State} (hwf : ∀ i ∈ l, i.WellFormed = true)
    (hr : s.wasReset = true) : ∃ t, runInstrs l s = .next t ∧ t.wasReset = true := by
  induction l generalizing s with
  | nil => exact ⟨s, rfl, hr⟩
  | cons i l ih =>
    obtain ⟨hi, hl⟩ := List.forall_mem_cons.mp hwf
    obtain ⟨u, hu⟩ := exec_completes hi hr
    rw [runInstrs_cons_of_next hu]
    exact ih hl (wasReset_of_exec hu hr)

/-- Settles O35: behind the NotReset check an effect always answers, and no operation takes `was_reset` back. -/
theorem afterResetEverythingCompletes : Obligations.AfterResetEverythingCompletes := by
  refine ⟨fun i s hwf hr => ?_, fun l s hwf hr => runInstrs_completes hwf hr⟩
  obtain ⟨t, ht⟩ := exec_completes hwf hr
  exact ⟨t, ht, wasReset_of_exec ht hr⟩

/-! ### RESET -/

theorem wellFormed_of_formatterOp {i : Instr} {cmd : CmdName} {op : Byte} (hf : formatterOp i = some (cmd, op)) :
    i.WellFormed = true := by
  cases i <;> cases hf <;> rfl

theorem exec_formatter_of_not_reset {i : Instr} {cmd : CmdName} {op : Byte} {s : State}
    (hf : formatterOp i = some (cmd, op)) (hr : s.wasReset = false) : exec i s = .fault .notReset := by
  obtain ⟨q, -, -, -, hissue⟩ := exec_formatter hf s.params
  rw [hissue s rfl, issue_of_not_reset hr]

/-- Settles O30: the word is op-select code 0, the effect has none of the old elements in it, and what the port
decoder yields is well-formed, so it is RESET or stands behind the NotReset check. -/
theorem resetRule : Obligations.ResetRule := by
  intro arg s
  have hword : 0x000#11 ||| arg.setWidth 11 = commandWord 0 arg := shifted_or_arg 0 arg
  refine ⟨?word, rfl, rfl, fun hr w p i hi => ?portOps, fun hr i cmd op hf => exec_formatter_of_not_reset hf hr⟩
  case word => rw [hword, decode_port_reset]
  case portOps =>
    obtain ⟨-, hwf, -⟩ := decodePort_eq_ok hi
    exact exec_of_not_reset hwf hr

/-- Settles O31: RESET writes every element power-on leaves open, and the streams are empty already. -/
theorem powerOnThenReset : Obligations.PowerOnThenReset := by
  rintro arg s ⟨hr, htx, hevents⟩
  refine ⟨?_, fun i hwf hi => (exec_of_not_reset hwf hr).resolve_left fun ⟨a, ha⟩ => hi a ha⟩
  rw [exec_reset, State.doReset, htx, hevents]
  rfl

/-- Settles O46: a command stands behind the NotReset check, whatever its payload is, and RESET lifts it. -/
theorem formatterBeforeReset : Obligations.FormatterBeforeReset := by
  intro i cmd op s hf hr
  have hfault : exec i s = .fault .notReset := exec_formatter_of_not_reset hf hr
  refine ⟨hfault, fun is => by rw [runInstrs, hfault], fun a => ?_⟩
  obtain ⟨t, ht⟩ := exec_completes (s := s.doReset) (wellFormed_of_formatterOp hf) rfl
  exact ⟨t, by rw [runInstrs_cons_of_next (exec_reset s a), runInstrs_cons_of_next ht, runInstrs_nil]⟩

/-! ### READ_STATUS -/

/-- The fields of a status byte do not overlap (R25): one closed fact for each value of the four fields. -/
theorem status_fields (code : BitVec 3) (dry verify rescan : Bool) :
    let v := code.setWidth 8 ||| statusBit dry 3 ||| statusBit verify 4 ||| statusBit rescan 5
    v.extractLsb' 0 3 = code ∧ v.getLsbD 3 = dry ∧ v.getLsbD 4 = verify ∧ v.getLsbD 5 = rescan ∧
      v.extractLsb' 6 2 = 0 := by
  revert code dry verify rescan
  decide

/-- Settles O33: the word is op-select code 7, and the result handed back is the status byte. -/
theorem readStatusRule : Obligations.ReadStatusRule := by
  refine ⟨rfl, fun arg s => ⟨?word, fun hr => ?notReset, fun hr => ⟨statusByte s, ?result, status_fields _ _ _ _⟩⟩⟩
  case word =>
    have hword : 0x700#11 ||| arg.setWidth 11 = commandWord 7 arg := shifted_or_arg 7 arg
    rw [hword, decode_port_readStatus]
  case notReset => rw [exec_readStatus, portOp_of_not_reset hr]
  case result => rw [exec_readStatus, portOp_of_reset hr, State.putResult]

/-! ### The two outcomes of a formatter command -/

/-- A frame, sent or logged, and a `CmdDropped` record never leave the same state. -/
theorem sent_ne_dropped (op : Byte) (p : List Byte) (cmd : CmdName) (r : DropReason) (s : State) :
    sent op p s ≠ dropped cmd r s := by
  intro h
  have hevents : (sent op p s).events = s.events ++ [.cmdDropped cmd r] := by rw [h, dropped]
  cases hdry : s.ctrlDry with
  | true => simp [sent_of_dry hdry] at hevents
  | false => simp [sent_of_not_dry hdry] at hevents

/-- Settles O45: a command issues one payload, which is the bytes of a short frame or the reason it is dropped. -/
theorem formatterHasTwoOutcomes : Obligations.FormatterHasTwoOutcomes := by
  intro i cmd op s hf hr
  obtain ⟨q, hop, hlen, hdrop, hissue⟩ := exec_formatter hf s.params
  cases q with
  | ok p =>
    have hp : p.length ≤ 8 := hlen p rfl
    have hsent : exec i s = .next (sent op p s) := by
      rw [hissue s rfl, issue_eq_sent hr (by omega) (by omega)]
    exact .inl ⟨⟨p, hp, hsent⟩, fun r h => sent_ne_dropped op p cmd r s (by simpa [hsent] using h)⟩
  | error r =>
    have hdropped : exec i s = .next (dropped cmd r s) := by rw [hissue s rfl, issue_eq_dropped hr]
    exact .inr ⟨⟨r, hdrop r rfl, hdropped⟩,
      fun p h => sent_ne_dropped op p cmd r s (by simpa [hdropped] using h.symm)⟩

end Sys2Proof.Safety

/-! PROOFS. A step takes the oldest pending request (20_memory.md R60): what it runs, and that no operation looks at
the requests issued after it. -/

namespace Sys2Proof.Safety

open Sys2Proof Sys2Proof.Machine

/-! ### One step -/

theorem step_of_idle {s : State} (h : s.port = []) : step s = .next s := by
  rw [step, h]

theorem step_of_decode_ok {s : State} {r : Request} {rest : List Request} {i : Instr} (h : s.port = r :: rest)
    (hi : decode r = .ok i) : step s = exec i { s with port := rest } := by
  simp only [step, h, hi]

theorem step_of_decode_error {s : State} {r : Request} {rest : List Request} {why : Reject} (h : s.port = r :: rest)
    (hwhy : decode r = .error why) : step s = .refused (.badRequest why) := by
  simp only [step, h, hwhy]

/-- What a step that completes did: nothing, or one operation on the state without its request. -/
theorem step_eq_next {s t : State} (h : step s = .next t) :
    t = s ∨ ∃ (i : Instr) (rest : List Request), exec i { s with port := rest } = .next t := by
  cases hport : s.port with
  | nil => rw [step_of_idle hport] at h; cases h; exact .inl rfl
  | cons r rest =>
    cases hr : decode r with
    | ok i => exact .inr ⟨i, rest, (step_of_decode_ok hport hr).symm.trans h⟩
    | error why => rw [step_of_decode_error hport hr] at h; cases h

/-- A table word that is an operation stands for a request that decodes to it. -/
theorem tableRequest_of_decodeTableWord {nbits w : Nat} {i : Instr} (h : decodeTableWord nbits w = some i) :
    ∃ r, tableRequest nbits w = some r ∧ decode r = .ok i := by
  unfold decodeTableWord at h
  split at h
  next => cases h
  next r hr =>
    split at h
    next j hj => cases h; exact ⟨r, hr, hj⟩
    next => cases h

/-- Settles O5: a step is a case split on the pending requests and the decoder's answer, and a table word's request
stands before the pending ones, so taking it off gives the state back. -/
theorem stepRunsDecodedOperation : Obligations.StepRunsDecodedOperation := by
  intro s
  refine ⟨step_of_idle, fun r rest hport => ⟨fun i => step_of_decode_ok hport, fun why => step_of_decode_error hport⟩,
    fun nbits w i h => ?_⟩
  obtain ⟨r, hr, hi⟩ := tableRequest_of_decodeTableWord h
  have hput : s.withFetchWord nbits w = { s with port := r :: s.port } := by rw [State.withFetchWord, hr]
  rw [hput, step_of_decode_ok rfl hi]

/-! ### The requests not yet taken -/

/-- The state with other requests pending. -/
def withPort (q : List Request) (s : State) : State := { s with port := q }

section
variable (q : List Request) (s : State)

theorem encodeEffect_withPort (op : Byte) (p : List Byte) :
    encodeEffect op p (withPort q s) = withPort q (encodeEffect op p s) :=
  encodeEffect_map (withPort q) (fun _ => rfl) (fun _ _ => rfl) (fun _ _ => rfl) op p s

theorem rxAll_withPort (bs : List Byte) : rxAll bs (withPort q s) = withPort q (rxAll bs s) :=
  rxAll_map (withPort q) (fun _ _ => rfl) bs s

theorem exec_formatter_withPort {i : Instr} {cmd : CmdName} {op : Byte} (hf : formatterOp i = some (cmd, op)) :
    exec i (withPort q s) = mapNext (withPort q) (exec i s) := by
  obtain ⟨pl, -, -, -, hissue⟩ := exec_formatter hf s.params
  rw [hissue s rfl, hissue (withPort q s) rfl]
  exact issue_map _ cmd op pl s rfl (fun p => encodeEffect_withPort q s op p) (fun _ => rfl)

theorem exec_sendThermalReading_withPort (d : Direction) (p : List Byte) :
    exec (.sendThermalReading d p) (withPort q s) = mapNext (withPort q) (exec (.sendThermalReading d p) s) := by
  cases d with
  | hostToDevice => exact portOp_map _ _ s rfl (encodeEffect_withPort q s 0x0F p)
  | deviceToHost =>
    by_cases hp : p.length ≤ 65534
    · rw [exec_sendThermalReading_in _ hp, exec_sendThermalReading_in _ hp]
      exact portOp_map _ _ s rfl (rxAll_withPort q s _)
    · have hlong := Nat.lt_of_not_le hp
      rw [exec_sendThermalReading_none _ hlong, exec_sendThermalReading_none _ hlong]
      rfl

theorem exec_not_formatter_withPort {i : Instr} (hf : formatterOp i = none) :
    exec i (withPort q s) = mapNext (withPort q) (exec i s) := by
  cases i <;> cases hf
  case reset a => rfl
  case setDry a => exact portOp_map (withPort q) (fun t => t.setDry (dryBit a)) s rfl rfl
  case crcClear a => exact portOp_map (withPort q) (fun t => t.setCrc 0) s rfl rfl
  case crcFeed d => exact portOp_map (withPort q) (fun t => t.setCrc (crcStep t.crc d)) s rfl rfl
  case crcRead a => exact portOp_map (withPort q) (fun t => t.putResult t.crc) s rfl rfl
  case readStatus a => exact portOp_map (withPort q) (fun t => t.putResult (statusByte t)) s rfl rfl
  case encode op p => exact portOp_map (withPort q) _ s rfl (encodeEffect_withPort q s op p)
  case rxByte b => exact portOp_map (withPort q) (rxEffect b) s rfl rfl
  case sendThermalReading d p => exact exec_sendThermalReading_withPort q s d p

/-- No operation looks at the pending requests or changes them. -/
theorem exec_withPort (i : Instr) : exec i (withPort q s) = mapNext (withPort q) (exec i s) := by
  cases hf : formatterOp i with
  | some c => exact exec_formatter_withPort q s hf
  | none => exact exec_not_formatter_withPort q s hf

end

/-- Settles O6, by induction on the requests: the decoder gives each operation back, and it runs the same whatever
is pending behind it. -/
theorem issuedRequestsRunInOrder : Obligations.IssuedRequestsRunInOrder := by
  intro l
  induction l with
  | nil =>
    rintro s - hport
    have hsame : { s with port := [] } = s := by rw [← hport]
    exact congrArg Host.Outcome.next hsame
  | cons i l ih =>
    intro s hwf hport
    obtain ⟨hi, hl⟩ := List.forall_mem_cons.mp hwf
    have hstep : step { s with port := (i :: l).map encode } = mapNext (withPort (l.map encode)) (exec i s) := by
      rw [step_of_decode_ok rfl (encodeThenDecode i hi)]
      exact exec_withPort _ s i
    rw [List.length_cons, stepN, hstep, runInstrs]
    cases he : exec i s with
    | next t => exact ih t hl ((port_of_exec he).trans hport)
    | fault f => rfl
    | refused r => rfl

end Sys2Proof.Safety

/-! PROOFS. What one received byte does to a decoder in any state, with the records it emits and their causes
(43_decoder.md R190 to R194, R201, 60_exceptions.md R242), and the causes of the other operations' records. -/

namespace Sys2Proof.Safety

open Sys2Proof Sys2Proof.Machine

/-! ### One received byte -/

/-- What a received byte can do to the partial frame: go on with it, discard it for one of the six causes of R242
that no accepted frame has, or complete it. -/
inductive ByteOutcome (b : Byte) (s : State) : Prop where
  | silent (d : Decoder) (hstep : decoderStep s.params s.dec b = (d, []))
  | discards (code : RxCode) (hcause : RxCause b s (.rxDiscard code b))
      (halone : standsAlone (.rxDiscard code b) = true) (hstep : decoderStep s.params s.dec b = abort s.params code b)
  | accepts (hs : s.dec.dstate = .rxCrc) (hok : s.params.verifyCrc = false ∨ b = s.dec.dcrc)
      (hstep : decoderStep s.params s.dec b =
        (Decoder.idle, frameRecords s.dec.dop s.dec.dbuf (decide (b = s.dec.dcrc)) b))

/-- Every byte in every state has one of these outcomes: one arm of R182 to R189 each. -/
theorem byteOutcome (b : Byte) (s : State) : ByteOutcome b s := by
  cases hs : s.dec.dstate with
  | seekMark => exact .silent _ (decoderStep_seekMark hs)
  | seekP =>
    by_cases hb : b = 0x50
    · exact .silent _ (decoderStep_seekP_mark hs hb)
    · exact .discards .badMark ⟨rfl, hs, hb⟩ rfl (decoderStep_seekP_abort hs hb)
  | seekD =>
    by_cases hb : b = 0x3E
    · exact .silent _ (decoderStep_seekD_dir hs hb)
    · exact .discards .badDir ⟨rfl, hs, hb⟩ rfl (decoderStep_seekD_abort hs hb)
  | lenHi => exact .silent _ (decoderStep_lenHi hs)
  | lenLo =>
    by_cases h0 : s.dec.dhi.toNat * 256 + b.toNat = 0
    · exact .discards .badLen ⟨rfl, hs, h0⟩ rfl (decoderStep_lenLo_zero hs h0)
    by_cases hL : s.params.rxMaxLen < s.dec.dhi.toNat * 256 + b.toNat
    · exact .discards .lenTooLong ⟨rfl, hs, hL⟩ rfl (decoderStep_lenLo_tooLong hs h0 hL)
    · exact .silent _ (decoderStep_lenLo_ok hs h0 (Nat.le_of_not_lt hL))
  | bodyOp =>
    by_cases hb : 15 < b.toNat
    · exact .discards .badOpcode ⟨rfl, hs, hb⟩ rfl (decoderStep_bodyOp_abort hs hb)
    · exact .silent _ (decoderStep_bodyOp_ok hs (Nat.le_of_not_lt hb))
  | payload => exact .silent _ (decoderStep_payload hs)
  | rxCrc =>
    by_cases hok : s.params.verifyCrc = false ∨ b = s.dec.dcrc
    · exact .accepts hs hok (decoderStep_rxCrc_accept hs hok)
    · obtain ⟨hv, hb⟩ := not_or.mp hok
      have hv : s.params.verifyCrc = true := eq_true_of_ne_false hv
      exact .discards .badCrc ⟨rfl, hs, hv, hb⟩ rfl (decoderStep_rxCrc_abort hs hv hb)

theorem abort_records (P : Params) (code : RxCode) (b : Byte) : (abort P code b).2 = [.rxDiscard code b] := rfl

/-- The three forms of an accepted frame's records (R190, R191, R193). -/
theorem frameRecords_cases (op : Byte) (p : List Byte) (ok : Bool) (c : Byte) :
    (op = 0x0F ∧ p.length = 64 ∧ frameRecords op p ok c = [.rxFrame op p ok, .rxReading (matrix p)]) ∨
    (op = 0x0F ∧ p.length ≠ 64 ∧ frameRecords op p ok c = [.rxFrame op p ok, .rxDiscard .badReadingLen c]) ∨
    (op ≠ 0x0F ∧ frameRecords op p ok c = [.rxFrame op p ok]) := by
  unfold frameRecords
  by_cases hop : op = 0x0F
  · by_cases hlen : p.length = 64
    · exact .inl ⟨hop, hlen, if_pos ⟨hop, hlen⟩⟩
    · exact .inr (.inl ⟨hop, hlen, by rw [if_neg (fun h => hlen h.2), if_pos hop]⟩)
  · exact .inr (.inr ⟨hop, by rw [if_neg (fun h => hop h.1), if_neg hop]⟩)

/-- The records of an accepted frame have the causes of R190, R191 and R193. -/
theorem rxCause_of_mem_frameRecords {b : Byte} {s : State} {e : Event} (hs : s.dec.dstate = .rxCrc)
    (hok : s.params.verifyCrc = false ∨ b = s.dec.dcrc)
    (he : e ∈ frameRecords s.dec.dop s.dec.dbuf (decide (b = s.dec.dcrc)) b) : RxCause b s e := by
  have hframe : RxCause b s (.rxFrame s.dec.dop s.dec.dbuf (decide (b = s.dec.dcrc))) := ⟨rfl, rfl, rfl, hs, hok⟩
  obtain ⟨hop, hlen, hg⟩ | ⟨hop, hlen, hg⟩ | ⟨-, hg⟩ := frameRecords_cases s.dec.dop s.dec.dbuf _ b
  · rw [hg] at he
    obtain rfl | rfl := List.mem_pair.mp he
    · exact hframe
    · exact ⟨rfl, hs, hop, hlen, hok⟩
  · rw [hg] at he
    obtain rfl | rfl := List.mem_pair.mp he
    · exact hframe
    · exact ⟨rfl, hs, hop, hlen, hok⟩
  · rw [hg] at he
    rw [List.mem_singleton.mp he]
    exact hframe

/-- Every record of a byte has its cause. -/
theorem rxCause_of_mem_decoderStep {b : Byte} {s : State} {e : Event}
    (he : e ∈ (decoderStep s.params s.dec b).2) : RxCause b s e := by
  cases byteOutcome b s with
  | silent d hstep => rw [hstep] at he; cases he
  | discards code hcause _ hstep =>
    rw [hstep, abort_records] at he
    rw [List.mem_singleton.mp he]
    exact hcause
  | accepts hs hok hstep =>
    rw [hstep] at he
    exact rxCause_of_mem_frameRecords hs hok he

/-- A completed RX_BYTE emits what its decoder step emits. -/
theorem events_of_exec_rxByte {b : Byte} {s t : State} (h : exec (.rxByte b) s = .next t) :
    t.events = s.events ++ (decoderStep s.params s.dec b).2 := by
  rw [exec_rxByte] at h
  rw [(portOp_eq_next h).2, rxEffect_eq]

/-- Settles O25: a byte is silent, discards, or completes a frame, whose records have three forms. -/
theorem atMostTwoRecordsPerByte : Obligations.AtMostTwoRecordsPerByte := by
  intro b s t h
  refine ⟨_, events_of_exec_rxByte h, ?_⟩
  cases byteOutcome b s with
  | silent d hstep => exact .inl (by rw [hstep])
  | discards code _ _ hstep => exact .inr (.inl ⟨code, by rw [hstep, abort_records]⟩)
  | accepts _ _ hstep =>
    refine .inr (.inr ⟨s.dec.dop, s.dec.dbuf, decide (b = s.dec.dcrc), ?_⟩)
    rw [hstep]
    obtain ⟨-, -, hg⟩ | ⟨-, -, hg⟩ | ⟨-, hg⟩ := frameRecords_cases s.dec.dop s.dec.dbuf _ b
    · exact .inr (.inl ⟨_, hg⟩)
    · exact .inr (.inr hg)
    · exact .inl hg

/-! ### The records of the other operations -/

/-- The records of an ENCODE's effect, with the causes of R121 and R122. -/
theorem encodeEffect_causes (op : Byte) (p : List Byte) (s : State) :
    ∃ es, (encodeEffect op p s).events = s.events ++ es ∧ ∀ e ∈ es, EncodeCause op p s e := by
  obtain ⟨hop, he⟩ | ⟨hop, hlen, he⟩ | ⟨hop, hlen, hdry, he⟩ | ⟨-, -, -, he⟩ := encodeEffect_cases op p s
  · refine ⟨[.txError .badOpcode op p.length], by rw [he, State.emit_events], List.forall_mem_singleton.mpr ?_⟩
    exact ⟨rfl, rfl, hop⟩
  · refine ⟨[.txError .lenOverflow op p.length], by rw [he, State.emit_events], List.forall_mem_singleton.mpr ?_⟩
    exact ⟨rfl, rfl, hop, hlen⟩
  · refine ⟨[.txDryFrame (buildFrame 0x3C op p)], by rw [he, State.emit_events], List.forall_mem_singleton.mpr ?_⟩
    exact ⟨hdry, hop, hlen, rfl⟩
  · exact ⟨[], by rw [he, State.txWrite_events, List.append_nil], nofun⟩

/-- A command's records: its `CmdDropped`, or the dry frame, since its payload passes both of ENCODE's checks. -/
theorem formatter_causes {i : Instr} {cmd : CmdName} {op : Byte} {s t : State}
    (hf : formatterOp i = some (cmd, op)) (h : exec i s = .next t) :
    ∃ es, t.events = s.events ++ es ∧ ∀ e ∈ es,
      (∃ r, mayDrop cmd r = true ∧ e = .cmdDropped cmd r) ∨
      (s.ctrlDry = true ∧ ∃ p, e = .txDryFrame (buildFrame 0x3C op p)) := by
  obtain ⟨q, hop, hlen, hdrop, hissue⟩ := exec_formatter hf s.params
  rw [hissue s rfl] at h
  obtain ⟨-, rfl⟩ := portOp_eq_next h
  cases q with
  | error r => exact ⟨_, rfl, List.forall_mem_singleton.mpr (.inl ⟨r, hdrop r rfl, rfl⟩)⟩
  | ok p =>
    have hp := hlen p rfl
    rw [commandEffect_ok, encodeEffect_eq_sent (by omega) (by omega)]
    cases hdry : s.ctrlDry with
    | true => exact ⟨_, by rw [sent_of_dry hdry], List.forall_mem_singleton.mpr (.inr ⟨rfl, p, rfl⟩)⟩
    | false => exact ⟨[], by rw [sent_of_not_dry hdry, List.append_nil], nofun⟩

/-- Settles O54: the causes are read off each operation's own effect, and the operations that write records are
those of the frame rule. -/
theorem eventCauses : Obligations.EventCauses := by
  refine ⟨fun b s t h => ⟨_, events_of_exec_rxByte h, fun e => rxCause_of_mem_decoderStep⟩, fun op p s t h => ?encode,
    fun i cmd op s t hf h => formatter_causes hf h, fun i s t h hencode hrx hformatter hsend => ?others⟩
  case encode =>
    rw [exec_encode] at h
    rw [(portOp_eq_next h).2]
    exact encodeEffect_causes op p s
  case others =>
    obtain ⟨-, -, -, -, -, -, -, -, hevents⟩ := operationFrames i s t h
    by_contra hne
    obtain hi | hi | hi | ⟨d, p, hi⟩ := hevents hne
    · exact Bool.false_ne_true (hencode.symm.trans hi)
    · exact Bool.false_ne_true (hrx.symm.trans hi)
    · exact Bool.false_ne_true (hformatter.symm.trans hi)
    · exact hsend d p hi

end Sys2Proof.Safety

/-! PROOFS. Runs of received bytes (43_decoder.md §6): a device frame is decoded whole (90_conflicts.md C1), noise
yields discards only, and the decoder then finds the next frame (C2). -/

namespace Sys2Proof.Safety

open Sys2Proof Sys2Proof.Machine

/-! ### Runs of the decoder -/

/-- The partial frame a list of bytes leaves, and the records it emits. -/
def decoderRun (P : Params) : List Byte → Decoder → Decoder × List Event
  | [], d => (d, [])
  | b :: bs, d =>
    ((decoderRun P bs (decoderStep P d b).1).1, (decoderStep P d b).2 ++ (decoderRun P bs (decoderStep P d b).1).2)

/-- What RX_BYTEs do to the codec is a run of its decoder. -/
theorem rxAll_eq_decoderRun (bs : List Byte) (s : State) :
    rxAll bs s = { s with
      dec := (decoderRun s.params bs s.dec).1
      events := s.events ++ (decoderRun s.params bs s.dec).2 } := by
  induction bs generalizing s with
  | nil => simp [decoderRun]
  | cons b bs ih => rw [rxAll_cons, ih, rxEffect_eq]; simp [decoderRun]

/-- A poll whose run is known. -/
theorem runInstrs_poll_of_decoderRun {s : State} (hr : s.wasReset = true) {bs : List Byte} {d : Decoder}
    {es : List Event} (hrun : decoderRun s.params bs s.dec = (d, es)) :
    runInstrs (pollOps bs) s = .next { s with dec := d, events := s.events ++ es } := by
  rw [runInstrs_poll hr, rxAll_eq_decoderRun, hrun]

section
variable {P : Params} {d d' : Decoder}

theorem decoderRun_cons_of_step {b : Byte} {es : List Event} (h : decoderStep P d b = (d', es)) (bs : List Byte) :
    decoderRun P (b :: bs) d = ((decoderRun P bs d').1, es ++ (decoderRun P bs d').2) := by
  rw [decoderRun, h]

theorem decoderRun_cons_silent {b : Byte} (h : decoderStep P d b = (d', [])) (bs : List Byte) :
    decoderRun P (b :: bs) d = decoderRun P bs d' := decoderRun_cons_of_step h bs

theorem decoderRun_append {a : List Byte} {es : List Event} (h : decoderRun P a d = (d', es)) (b : List Byte) :
    decoderRun P (a ++ b) d = ((decoderRun P b d').1, es ++ (decoderRun P b d').2) := by
  induction a generalizing d es with
  | nil => cases h; rfl
  | cons x a ih =>
    obtain ⟨hd, hes⟩ := Prod.mk.inj h
    rw [List.cons_append, decoderRun, ih (Prod.ext hd rfl), ← hes, List.append_assoc]

/-! ### A device frame -/

theorem crc8_marker : crc8 [0x24] = 0x5A := by decide

theorem decoderStep_marker_of_seekMark (hs : d.dstate = .seekMark) :
    decoderStep P d 0x24 = ({ d with dcrc := 0x5A, dstate := .seekP }, []) := by
  rw [decoderStep_seekMark hs, seekMarkArm_mark]

/-- After the marker an acceptable header leads to the opcode, with the length joined and the CRC of its bytes. -/
theorem decoderRun_header {hi lo : Byte} (hs : d.dstate = .seekP) (hc : d.dcrc = crc8 [0x24])
    (h0 : hi.toNat * 256 + lo.toNat ≠ 0) (hL : hi.toNat * 256 + lo.toNat ≤ P.rxMaxLen) :
    ∃ u, decoderRun P [0x50, 0x3E, hi, lo] d = (u, []) ∧ u.dstate = .bodyOp ∧ u.dlen = joinBytes hi lo ∧
      u.dcrc = crc8 [0x24, 0x50, 0x3E, hi, lo] := by
  have hlo (e : Decoder) (he : e.dstate = .lenLo) (hhi : e.dhi = hi) :
      decoderStep P e lo = ({ e with dlen := joinBytes hi lo, dcrc := crcStep e.dcrc lo, dstate := .bodyOp }, []) := by
    subst hhi
    exact decoderStep_lenLo_ok he h0 hL
  refine ⟨{ d with
    dhi := hi, dlen := joinBytes hi lo, dstate := .bodyOp
    dcrc := crcStep (crcStep (crcStep (crcStep d.dcrc 0x50) 0x3E) hi) lo }, ?run, rfl, rfl, by rw [hc]; rfl⟩
  refine Eq.trans (decoderRun_cons_silent (decoderStep_seekP_mark hs rfl) _) ?_
  refine Eq.trans (decoderRun_cons_silent (decoderStep_seekD_dir rfl rfl) _) ?_
  refine Eq.trans (decoderRun_cons_silent (decoderStep_lenHi rfl) _) ?_
  exact decoderRun_cons_silent (hlo _ rfl rfl) []

theorem toNat_sub_one {v : BitVec 16} {n : Nat} (h : v.toNat = n + 1) : (v - 1).toNat = n := by
  rw [BitVec.toNat_sub_of_le (by rw [BitVec.le_def, h]; simp), h]
  rfl

/-- The decoder inside a frame of opcode `op`, with the payload bytes `q` collected, `n` more expected and running
CRC `c`. -/
structure AwaitsPayload (d : Decoder) (n : Nat) (op : Byte) (q : List Byte) (c : Byte) : Prop where
  dop : d.dop = op
  dbuf : d.dbuf = q
  dcnt : d.dcnt.toNat = n
  dcrc : d.dcrc = c
  dstate : d.dstate = if n = 0 then .rxCrc else .payload

variable {op c : Byte} {q p : List Byte}

/-- A legal opcode begins the payload, one byte shorter than the length says. -/
theorem awaitsPayload_of_opcode {n : Nat} (hs : d.dstate = .bodyOp) (hop : op.toNat ≤ 15)
    (hn : d.dlen.toNat = n + 1) :
    ∃ d', decoderStep P d op = (d', []) ∧ AwaitsPayload d' n op [] (crcStep d.dcrc op) := by
  have hone : d.dlen = 1 ↔ n = 0 := by rw [← BitVec.toNat_inj, hn]; simp
  exact ⟨_, decoderStep_bodyOp_ok hs hop, ⟨rfl, rfl, toNat_sub_one hn, rfl, by simp only [hone]⟩⟩

theorem AwaitsPayload.step {n : Nat} (h : AwaitsPayload d (n + 1) op q c) (b : Byte) :
    ∃ d', decoderStep P d b = (d', []) ∧ AwaitsPayload d' n op (q ++ [b]) (crcStep c b) := by
  have hone : d.dcnt = 1 ↔ n = 0 := by rw [← BitVec.toNat_inj, h.dcnt]; simp
  exact ⟨_, decoderStep_payload h.dstate,
    ⟨h.dop, by rw [h.dbuf], toNat_sub_one h.dcnt, by rw [h.dcrc], by simp only [hone]⟩⟩

/-- The payload bytes are collected silently, in order, and folded into the running CRC. -/
theorem AwaitsPayload.run (h : AwaitsPayload d p.length op q c) :
    ∃ d', decoderRun P p d = (d', []) ∧ AwaitsPayload d' 0 op (q ++ p) (p.foldl crcStep c) := by
  induction p generalizing d q c with
  | nil => exact ⟨d, rfl, by rwa [List.append_nil]⟩
  | cons b p ih =>
    obtain ⟨u, hu, hnext⟩ := h.step (P := P) b
    obtain ⟨d', hrun, hend⟩ := ih hnext
    exact ⟨d', by rw [decoderRun_cons_silent hu, hrun], by rwa [List.append_assoc] at hend⟩

/-- A checksum byte that matches completes the frame, under either policy. -/
theorem AwaitsPayload.checksum (h : AwaitsPayload d 0 op q c) :
    decoderRun P [c] d = (Decoder.idle, frameRecords op q true c) := by
  have hstep := decoderStep_rxCrc_accept (P := P) (b := c) h.dstate (.inr h.dcrc.symm)
  rw [decoderRun_cons_of_step hstep, h.dop, h.dbuf, h.dcrc, decide_eq_true rfl]
  exact congrArg (Prod.mk _) (List.append_nil _)

section
variable (hop : op.toNat ≤ 15) (hlen : p.length ≤ 65534) (hmax : p.length + 1 ≤ P.rxMaxLen)
include hop hlen hmax

/-- Once its marker has been seen, a device frame is decoded whole. -/
theorem decoderRun_frame_after_marker (hs : d.dstate = .seekP) (hc : d.dcrc = crc8 [0x24]) :
    decoderRun P (buildFrame 0x3E op p).tail d =
      (Decoder.idle, frameRecords op p true (crc8 (frameBody 0x3E op p))) := by
  have hL := lengthField_bytes hlen
  have hn : (lengthField p).toNat = p.length + 1 := by
    rw [← joinBytes_hiByte_loByte (lengthField p), joinBytes_toNat, hL, Nat.add_comm]
  obtain ⟨u, hheader, hu, hulen, hucrc⟩ := decoderRun_header (P := P) (hi := hiByte (lengthField p))
    (lo := loByte (lengthField p)) hs hc (by omega) (by omega)
  rw [joinBytes_hiByte_loByte] at hulen
  obtain ⟨v, hopcode, hv⟩ := awaitsPayload_of_opcode (P := P) (n := p.length) hu hop (by rw [hulen, hn])
  obtain ⟨w, hpayload, hw⟩ := hv.run (P := P)
  have hcrc : p.foldl crcStep (crcStep u.dcrc op) = crc8 (frameBody 0x3E op p) := by
    rw [hucrc]
    exact (crc8_append [0x24, 0x50, 0x3E, hiByte (lengthField p), loByte (lengthField p), op] p).symm
  rw [hcrc] at hw
  have htail : (buildFrame 0x3E op p).tail =
      [0x50, 0x3E, hiByte (lengthField p), loByte (lengthField p)] ++
        ([op] ++ (p ++ [crc8 (frameBody 0x3E op p)])) := rfl
  rw [htail, decoderRun_append hheader, decoderRun_append (decoderRun_cons_silent hopcode []),
    decoderRun_append hpayload, hw.checksum]
  rfl

/-- From SEEK_MARK a device frame is decoded whole. -/
theorem decoderRun_frame_of_seekMark (hs : d.dstate = .seekMark) :
    decoderRun P (buildFrame 0x3E op p) d =
      (Decoder.idle, frameRecords op p true (crc8 (frameBody 0x3E op p))) := by
  refine Eq.trans (decoderRun_cons_silent (decoderStep_marker_of_seekMark hs) _) ?_
  exact decoderRun_frame_after_marker hop hlen hmax rfl crc8_marker.symm

/-- A frame whose marker aborts another one is decoded whole when bytes are re-examined. -/
theorem decoderRun_frame_of_abort {code : RxCode} (hrescan : P.rescanOnAbort = true)
    (habort : decoderStep P d 0x24 = abort P code 0x24) :
    decoderRun P (buildFrame 0x3E op p) d =
      (Decoder.idle, .rxDiscard code 0x24 :: frameRecords op p true (crc8 (frameBody 0x3E op p))) := by
  have hmark : decoderStep P d 0x24 =
      ({ Decoder.idle with dstate := .seekP, dcrc := 0x5A }, [.rxDiscard code 0x24]) := by
    rw [habort, abort_eq, if_pos ⟨hrescan, rfl⟩]
  have hrest := decoderRun_frame_after_marker (d := { Decoder.idle with dstate := .seekP, dcrc := 0x5A }) hop hlen hmax
    rfl crc8_marker.symm
  refine Eq.trans (decoderRun_cons_of_step hmark _) ?_
  exact congrArg (fun r => (r.1, .rxDiscard code 0x24 :: r.2)) hrest

end

/-- The header of a host frame is rejected at its direction byte (R184, C1). -/
theorem decoderRun_host_header (hs : d.dstate = .seekMark) :
    decoderRun P [0x24, 0x50, 0x3C] d = abort P .badDir 0x3C := by
  refine Eq.trans (decoderRun_cons_silent (decoderStep_marker_of_seekMark hs) _) ?_
  refine Eq.trans (decoderRun_cons_silent (decoderStep_seekP_mark rfl rfl) _) ?_
  exact decoderRun_cons_of_step (decoderStep_seekD_abort rfl (by decide)) []

/-! ### Noise -/

/-- The decoder after the bytes `n` outside any frame: in SEEK_P or SEEK_D it holds the marker they end with. -/
def SeekTracks (n : List Byte) (d : Decoder) : Prop :=
  d.dstate = .seekMark ∨ (d.dstate = .seekP ∧ [0x24] <:+ n) ∨ (d.dstate = .seekD ∧ [0x24, 0x50] <:+ n)

theorem seekTracks_abort (P : Params) (code : RxCode) (n : List Byte) (b : Byte) :
    SeekTracks (n ++ [b]) (abort P code b).1 := by
  rw [abort_eq]
  dsimp only
  split
  next h => exact .inr (.inl ⟨rfl, by rw [h.2]; exact List.suffix_append n _⟩)
  next => exact .inl rfl

/-- One more byte of noise moves the decoder within its first three states, or aborts back to them. -/
theorem SeekTracks.step {n : List Byte} (h : SeekTracks n d) {b : Byte} (hn : ¬ [0x24, 0x50, 0x3E] <:+ n ++ [b]) :
    SeekTracks (n ++ [b]) (decoderStep P d b).1 ∧ ∀ e ∈ (decoderStep P d b).2, ∃ c x, e = .rxDiscard c x := by
  have habort (code : RxCode) (hstep : decoderStep P d b = abort P code b) :
      SeekTracks (n ++ [b]) (decoderStep P d b).1 ∧ ∀ e ∈ (decoderStep P d b).2, ∃ c x, e = .rxDiscard c x := by
    rw [hstep]
    exact ⟨seekTracks_abort P code n b, List.forall_mem_singleton.mpr ⟨code, b, rfl⟩⟩
  obtain hs | ⟨hs, u, rfl⟩ | ⟨hs, u, rfl⟩ := h
  · rw [decoderStep_seekMark hs]
    refine ⟨?_, nofun⟩
    by_cases hb : b = 0x24
    · exact .inr (.inl ⟨by rw [hb, seekMarkArm_mark], by rw [hb]; exact List.suffix_append n _⟩)
    · exact .inl (by rw [seekMarkArm_of_ne d hb, hs])
  · by_cases hb : b = 0x50
    · rw [decoderStep_seekP_mark hs hb, hb]
      exact ⟨.inr (.inr ⟨rfl, u, by simp⟩), nofun⟩
    · exact habort .badMark (decoderStep_seekP_abort hs hb)
  · by_cases hb : b = 0x3E
    · exact absurd ⟨u, by rw [hb]; simp⟩ hn
    · exact habort .badDir (decoderStep_seekD_abort hs hb)

/-- Bytes without `24 50 3E` in a row yield discards only. -/
theorem decoderRun_noise (hs : d.dstate = .seekMark) {n : List Byte} (hn : ¬ [0x24, 0x50, 0x3E] <:+: n) :
    ∃ d' es, decoderRun P n d = (d', es) ∧ SeekTracks n d' ∧ ∀ e ∈ es, ∃ c x, e = .rxDiscard c x := by
  induction n using List.reverseRecOn with
  | nil => exact ⟨d, [], rfl, .inl hs, nofun⟩
  | append_singleton n b ih =>
    obtain ⟨u, es, hrun, hu, hes⟩ := ih fun h => hn (h.trans ⟨[], [b], rfl⟩)
    obtain ⟨hb, hrecords⟩ := hu.step (P := P) (b := b) fun h => hn h.isInfix
    refine ⟨_, _, decoderRun_append hrun [b], hb, fun e he => ?_⟩
    obtain he | he := List.mem_append.mp he
    · exact hes e he
    · exact hrecords e (by simpa [decoderRun] using he)

/-- In SEEK_P and in SEEK_D a marker byte aborts. -/
theorem decoderStep_marker_aborts (hs : d.dstate = .seekP ∨ d.dstate = .seekD) :
    ∃ code, decoderStep P d 0x24 = abort P code 0x24 := by
  obtain hs | hs := hs
  · exact ⟨_, decoderStep_seekP_abort hs (by decide)⟩
  · exact ⟨_, decoderStep_seekD_abort hs (by decide)⟩

end

/-! ### The round trip and the resynchronisation -/

/-- Settles O27: the header leads to the payload, an induction over the payload collects it, and the checksum byte
is the running CRC. -/
theorem loopbackRoundTrip : Obligations.LoopbackRoundTrip := by
  intro op p s hr hs
  exact ⟨fun hop hlen hmax => runInstrs_poll_of_decoderRun hr (decoderRun_frame_of_seekMark hop hlen hmax hs),
    runInstrs_poll_of_decoderRun hr ((decoderRun_host_header hs).trans (abort_eq _ _ _))⟩

/-- Settles O28: noise keeps the decoder in its first three states, and the next marker starts a frame in SEEK_MARK,
aborts and starts one when it is re-examined, and is lost to the abort otherwise. -/
theorem resynchronisation : Obligations.Resynchronisation := by
  intro n s hr hs hn
  obtain ⟨d, es, hrun, htracks, hes⟩ := decoderRun_noise (P := s.params) hs hn
  have hstates : d.dstate = .seekMark ∨ d.dstate = .seekP ∨ d.dstate = .seekD :=
    htracks.imp_right (.imp And.left And.left)
  refine ⟨d, es, _, rfl, runInstrs_poll_of_decoderRun hr hrun, hes, hstates,
    fun op p hop hlen hmax hfind => ?frame, fun hrescan hne => ?lost⟩
  case frame =>
    have hpoll {bs : List Byte} {d' : Decoder} {es' : List Event} (h : decoderRun s.params bs d = (d', es')) :=
      runInstrs_poll_of_decoderRun (s := { s with dec := d, events := s.events ++ es }) hr h
    by_cases hmark : d.dstate = .seekMark
    · refine ⟨[], by rw [if_pos hmark], ?_⟩
      rw [List.append_nil]
      exact hpoll (decoderRun_frame_of_seekMark hop hlen hmax hmark)
    · obtain ⟨code, habort⟩ := decoderStep_marker_aborts (P := s.params) (hstates.resolve_left hmark)
      refine ⟨[.rxDiscard code 0x24], by rw [if_neg hmark]; exact ⟨code, rfl⟩, ?_⟩
      rw [List.append_assoc]
      exact hpoll (decoderRun_frame_of_abort hop hlen hmax (hfind.resolve_right hmark) habort)
  case lost =>
    obtain ⟨code, habort⟩ := decoderStep_marker_aborts (P := s.params) (hstates.resolve_left hne)
    have hidle : abort s.params code 0x24 = (Decoder.idle, [.rxDiscard code 0x24]) := by
      rw [abort_eq, if_neg (by simp [hrescan])]
    exact ⟨code, exec_rxByte_eq (s := { s with dec := d, events := s.events ++ es }) hr (habort.trans hidle)⟩

/-! ### SEND_THERMAL_READING -/

/-- Before the first RESET a poll faults at its first byte. -/
theorem runInstrs_poll_of_not_reset {s : State} (hr : s.wasReset = false) {bs : List Byte} (hbs : bs ≠ []) :
    runInstrs (pollOps bs) s = .fault .notReset := by
  obtain ⟨b, bs, rfl⟩ := List.exists_cons_of_ne_nil hbs
  rw [pollOps, List.map_cons, runInstrs, exec_rxByte, portOp_of_not_reset hr]

/-- An inbound frame is the poll of its bytes, and a frame is never empty. -/
theorem exec_sendThermalReading_eq_poll {p : List Byte} (hp : p.length ≤ 65534) (s : State) :
    exec (.sendThermalReading .deviceToHost p) s = runInstrs (pollOps (buildFrame 0x3E 0x0F p)) s := by
  rw [exec_sendThermalReading_in s hp]
  cases hr : s.wasReset with
  | true => rw [portOp_of_reset hr, runInstrs_poll hr]
  | false =>
    have hne : buildFrame 0x3E 0x0F p ≠ [] := List.cons_ne_nil _ _
    rw [portOp_of_not_reset hr, runInstrs_poll_of_not_reset hr hne]

/-- Settles O47: outbound both operations are one effect behind one check, and inbound the loopback round trip gives
the records of a frame with 64 samples. -/
theorem sendThermalReadingRule : Obligations.SendThermalReadingRule := by
  intro p s
  refine ⟨rfl, fun hp => exec_sendThermalReading_eq_poll hp s, exec_sendThermalReading_none s,
    fun h64 hmax hr hs => ?_⟩
  obtain ⟨hframe, -⟩ := loopbackRoundTrip 0x0F p s hr hs
  rw [exec_sendThermalReading_eq_poll (by omega) s, hframe (by decide) (by omega) (by omega), frameRecords,
    if_pos ⟨rfl, h64⟩]

end Sys2Proof.Safety

/-! PROOFS. The encoder side and the decoder side share no state (20_memory.md R61), however their operations are
interleaved. -/

namespace Sys2Proof.Safety

open Sys2Proof Sys2Proof.Machine

/-- `s` agrees with `e` in what ENCODE reads and writes, and with `d` in what RX_BYTE reads and writes. -/
structure AgreesWithSides (s e d : State) : Prop where
  reset : s.wasReset = true
  resetEncoder : e.wasReset = true
  resetDecoder : d.wasReset = true
  dry : s.ctrlDry = e.ctrlDry
  tx : s.tx = e.tx
  params : s.params = d.params
  dec : s.dec = d.dec
  records : s.events.filter isRxRecord = d.events.filter isRxRecord

/-- None of ENCODE's records is the decoder's. -/
theorem filter_isRxRecord_encodeOutput (op : Byte) (p : List Byte) (dry : Bool) :
    (encodeOutput op p dry).2.filter isRxRecord = [] := by
  unfold encodeOutput
  split
  · rfl
  split
  · rfl
  split
  · rfl
  · rfl

variable {s e d : State}

/-- An ENCODE on both keeps the agreement, and the decoder side need not take part. -/
theorem AgreesWithSides.encode (h : AgreesWithSides s e d) (op : Byte) (p : List Byte) :
    AgreesWithSides (encodeEffect op p s) (encodeEffect op p e) d := by
  rw [encodeEffect_eq_append_output, encodeEffect_eq_append_output]
  exact { h with
    tx := by rw [h.tx, h.dry]
    records := by rw [List.filter_append, filter_isRxRecord_encodeOutput, List.append_nil, h.records] }

/-- An RX_BYTE on both keeps the agreement, and the encoder side need not take part. -/
theorem AgreesWithSides.rxByte (h : AgreesWithSides s e d) (b : Byte) :
    AgreesWithSides (rxEffect b s) e (rxEffect b d) := by
  rw [rxEffect_eq, rxEffect_eq]
  exact { h with
    dec := by rw [h.params, h.dec]
    records := by rw [List.filter_append, List.filter_append, h.records, h.params, h.dec] }

/-- A whole run keeps the agreement, each side taking its own operations. -/
theorem AgreesWithSides.run (h : AgreesWithSides s e d) {l : List Instr}
    (hl : ∀ i ∈ l, isEncodeOp i = true ∨ isRxOp i = true) :
    ∃ t te td, runInstrs l s = .next t ∧ runInstrs (l.filter isEncodeOp) e = .next te ∧
      runInstrs (l.filter isRxOp) d = .next td ∧ AgreesWithSides t te td := by
  induction l generalizing s e d with
  | nil => exact ⟨s, e, d, rfl, rfl, rfl, h⟩
  | cons i l ih =>
    obtain ⟨hi, hrest⟩ := List.forall_mem_cons.mp hl
    cases i <;> simp only [isEncodeOp, isRxOp, Bool.false_eq_true, or_self] at hi
    case encode op p =>
      obtain ⟨t, te, td, hs, he, hd, ht⟩ := ih (h.encode op p) hrest
      have hencode {u : State} (hu : u.wasReset = true) : exec (.encode op p) u = .next (encodeEffect op p u) :=
        portOp_of_reset hu
      exact ⟨t, te, td, (runInstrs_cons_of_next (hencode h.reset) l).trans hs,
        (runInstrs_cons_of_next (hencode h.resetEncoder) _).trans he, hd, ht⟩
    case rxByte b =>
      obtain ⟨t, te, td, hs, he, hd, ht⟩ := ih (h.rxByte b) hrest
      exact ⟨t, te, td, (runInstrs_cons_of_next (exec_rxByte_of_reset h.reset b) l).trans hs, he,
        (runInstrs_cons_of_next (exec_rxByte_of_reset h.resetDecoder b) _).trans hd, ht⟩

/-- Settles O29: the state agrees with itself on both sides, and a run keeps the agreement. -/
theorem encodeDecodeIndependence : Obligations.EncodeDecodeIndependence := by
  intro l s hr hl
  have hself : AgreesWithSides s s s := ⟨hr, hr, hr, rfl, rfl, rfl, rfl, rfl⟩
  obtain ⟨t, te, td, hs, he, hd, ht⟩ := hself.run hl
  exact ⟨t, te, td, hs, he, hd, ht.tx, ht.dec, ht.records⟩

end Sys2Proof.Safety

/-! PROOFS. The two invariants, kept by every step: the partial frame fits its state (10_state.md §4, 43_decoder.md
R195), and each record and each byte sent is one its rule can produce (20_memory.md R57, 60_exceptions.md R242). -/

namespace Sys2Proof.Safety

open Sys2Proof Sys2Proof.Machine

/-! ### The partial frame -/

section
variable {P : Params} {d : Decoder}

theorem decoderOk_idle (P : Params) : DecoderOk P Decoder.idle := rfl

/-- The decoder right after a marker byte (R182). -/
theorem decoderOk_seekP (P : Params) : DecoderOk P { Decoder.idle with dcrc := 0x5A, dstate := .seekP } := by
  rw [← crc8_marker]
  rfl

theorem decoderOk_abort (P : Params) (code : RxCode) (b : Byte) : DecoderOk P (abort P code b).1 := by
  rw [abort_eq]
  dsimp only
  split
  next => exact decoderOk_seekP P
  next => exact decoderOk_idle P

/-- Once the opcode is known, PAYLOAD and RX_CRC differ in whether bytes are still expected. -/
theorem decoderOk_of_body (hs : d.dstate = if d.dcnt = 0 then .rxCrc else .payload) (hhi : d.dhi = hiByte d.dlen)
    (hmax : d.dlen.toNat ≤ P.rxMaxLen) (hop : d.dop.toNat ≤ 15)
    (hcount : d.dbuf.length + d.dcnt.toNat + 1 = d.dlen.toNat)
    (hcrc : d.dcrc = crc8 ([0x24, 0x50, 0x3E, hiByte d.dlen, loByte d.dlen, d.dop] ++ d.dbuf)) : DecoderOk P d := by
  unfold DecoderOk
  by_cases h0 : d.dcnt = 0
  · rw [hs, if_pos h0]
    rw [h0] at hcount
    exact ⟨hhi, hmax, hop, h0, hcount, hcrc⟩
  · rw [hs, if_neg h0]
    have hpos : d.dcnt.toNat ≠ 0 := fun h => h0 (BitVec.eq_of_toNat_eq h)
    exact ⟨hhi, hmax, hop, Nat.pos_of_ne_zero hpos, hcount, hcrc⟩

/-- The length's low byte completes a length the checks let through. -/
theorem decoderOk_lenLo_step {b : Byte} (hs : d.dstate = .lenLo) (h : DecoderOk P d) :
    DecoderOk P (decoderStep P d b).1 := by
  by_cases h0 : d.dhi.toNat * 256 + b.toNat = 0
  · rw [decoderStep_lenLo_zero hs h0]; exact decoderOk_abort P _ b
  by_cases hL : P.rxMaxLen < d.dhi.toNat * 256 + b.toNat
  · rw [decoderStep_lenLo_tooLong hs h0 hL]; exact decoderOk_abort P _ b
  rw [decoderStep_lenLo_ok hs h0 (Nat.le_of_not_lt hL)]
  simp only [DecoderOk, hs] at h
  simp only [DecoderOk, joinBytes_toNat, hiByte_joinBytes, loByte_joinBytes]
  refine ⟨?_, Nat.pos_of_ne_zero h0, Nat.le_of_not_lt hL⟩
  rw [h]
  rfl

/-- The opcode begins an empty payload, with the rest of the length still expected. -/
theorem decoderOk_bodyOp_step {b : Byte} (hs : d.dstate = .bodyOp) (h : DecoderOk P d) :
    DecoderOk P (decoderStep P d b).1 := by
  by_cases hb : 15 < b.toNat
  · rw [decoderStep_bodyOp_abort hs hb]; exact decoderOk_abort P _ b
  rw [decoderStep_bodyOp_ok hs (Nat.le_of_not_lt hb)]
  simp only [DecoderOk, hs] at h
  obtain ⟨hd, hpos, hmax⟩ := h
  have hcnt : (d.dlen - 1).toNat = d.dlen.toNat - 1 := toNat_sub_one (by omega)
  refine decoderOk_of_body (by simp only [sub_eq_zero]) ?_ hmax (Nat.le_of_not_lt hb) ?_ ?_
  · exact congrArg Decoder.dhi hd
  · simp only [hcnt, List.length_nil]; omega
  · have hcrc := congrArg Decoder.dcrc hd
    simp only [hcrc, List.append_nil]
    rfl

/-- A payload byte goes from the bytes expected to the bytes collected. -/
theorem decoderOk_payload_step {b : Byte} (hs : d.dstate = .payload) (h : DecoderOk P d) :
    DecoderOk P (decoderStep P d b).1 := by
  rw [decoderStep_payload hs]
  simp only [DecoderOk, hs] at h
  obtain ⟨hhi, hmax, hop, hpos, hcount, hcrc⟩ := h
  have hcnt : (d.dcnt - 1).toNat = d.dcnt.toNat - 1 := toNat_sub_one (by omega)
  refine decoderOk_of_body (by simp only [sub_eq_zero]) hhi hmax hop ?_ ?_
  · simp only [hcnt, List.length_append, List.length_singleton]; omega
  · dsimp only
    rw [hcrc, ← List.append_assoc, crc8_concat]

/-- Every byte keeps the partial frame's invariant. -/
theorem decoderOk_step (h : DecoderOk P d) (b : Byte) : DecoderOk P (decoderStep P d b).1 := by
  have hOk := h
  unfold DecoderOk at h
  cases hs : d.dstate with
  | seekMark =>
    rw [hs] at h
    rw [decoderStep_seekMark hs, show d = Decoder.idle from h]
    by_cases hb : b = 0x24
    · rw [hb, seekMarkArm_mark]; exact decoderOk_seekP P
    · rw [seekMarkArm_of_ne _ hb]; exact decoderOk_idle P
  | seekP =>
    rw [hs] at h
    by_cases hb : b = 0x50
    · rw [decoderStep_seekP_mark hs hb, hb, h]
      dsimp only
      rw [← crc8_concat]; rfl
    · rw [decoderStep_seekP_abort hs hb]; exact decoderOk_abort P _ b
  | seekD =>
    rw [hs] at h
    by_cases hb : b = 0x3E
    · rw [decoderStep_seekD_dir hs hb, hb, h]
      dsimp only
      rw [← crc8_concat]; rfl
    · rw [decoderStep_seekD_abort hs hb]; exact decoderOk_abort P _ b
  | lenHi =>
    rw [hs] at h
    rw [decoderStep_lenHi hs, h]
    dsimp only
    rw [← crc8_concat]; rfl
  | lenLo => exact decoderOk_lenLo_step hs hOk
  | bodyOp => exact decoderOk_bodyOp_step hs hOk
  | payload => exact decoderOk_payload_step hs hOk
  | rxCrc =>
    by_cases hok : P.verifyCrc = false ∨ b = d.dcrc
    · rw [decoderStep_rxCrc_accept hs hok]; exact decoderOk_idle P
    · obtain ⟨hv, hb⟩ := not_or.mp hok
      rw [decoderStep_rxCrc_abort hs (eq_true_of_ne_false hv) hb]; exact decoderOk_abort P _ b

end

/-! ### The decoder's invariant -/

section
variable {s t : State}

theorem decoderInv_rxEffect (h : DecoderInv s) (b : Byte) : DecoderInv (rxEffect b s) := by
  obtain ⟨hwf, hdec⟩ := h
  exact ⟨hwf, fun hr => decoderOk_step (hdec hr) b⟩

theorem decoderInv_rxAll (h : DecoderInv s) (bs : List Byte) : DecoderInv (rxAll bs s) := by
  induction bs generalizing s with
  | nil => exact h
  | cons b bs ih => exact ih (decoderInv_rxEffect h b)

/-- RESET clears the partial frame, received bytes keep it well, and nothing else touches it. -/
theorem decoderInv_of_did {i : Instr} (h : DecoderInv s) (hdid : Did i s t) : DecoderInv t := by
  cases hdid with
  | reset _ _ ht => subst ht; exact ⟨h.1, fun _ => decoderOk_idle _⟩
  | received bs _ _ ht => subst ht; exact decoderInv_rxAll h bs
  | encoded op p _ _ ht =>
    obtain ⟨bs, es, he⟩ := encodeEffect_frame op p s
    rw [ht, he]
    exact h
  | setDry _ _ _ ht | crcClear _ _ _ ht | crcFeed _ _ _ ht | crcRead _ _ _ ht | readStatus _ _ _ ht
  | dropped _ _ _ _ _ _ ht => subst ht; exact h

/-- Settles O50: a step does nothing or runs one operation, on a state that differs in its pending requests only. -/
theorem stepKeepsDecoderInv : Obligations.StepKeepsDecoderInv := by
  intro s t h hstep
  obtain rfl | ⟨i, rest, hexec⟩ := step_eq_next hstep
  · exact h
  · exact decoderInv_of_did (s := { s with port := rest }) h (did_of_exec hexec)

/-! ### The streams' invariant -/

/-- Records of one cause after a grouped stream leave it grouped. -/
theorem RecordsGrouped.append {es g : List Event} (h : RecordsGrouped es) (hg : IsRecordGroup g) :
    RecordsGrouped (es ++ g) := by
  obtain ⟨gs, rfl, hgs⟩ := h
  refine ⟨gs ++ [g], by simp, fun x hx => ?_⟩
  obtain hx | hx := List.mem_append.mp hx
  · exact hgs x hx
  · rw [List.mem_singleton.mp hx]; exact hg

theorem TxOk.append {tx f : List Byte} (h : TxOk tx) (hf : IsHostFrame f) : TxOk (tx ++ f) := by
  obtain ⟨fs, rfl, hfs⟩ := h
  refine ⟨fs ++ [f], by simp, fun x hx => ?_⟩
  obtain hx | hx := List.mem_append.mp hx
  · exact hfs x hx
  · rw [List.mem_singleton.mp hx]; exact hf

theorem isHostFrame_buildFrame {op : Byte} {p : List Byte} (hop : op.toNat ≤ 15) (hlen : p.length ≤ 65534) :
    IsHostFrame (buildFrame 0x3C op p) := ⟨op, p, hop, hlen, rfl⟩

theorem StreamInv.emit (h : StreamInv s) {g : List Event} (hok : ∀ e ∈ g, EventOk s.params e)
    (hg : IsRecordGroup g) : StreamInv (s.emit g) := by
  obtain ⟨hdec, hevents, hgrouped, htx⟩ := h
  exact ⟨hdec, List.forall_mem_append.mpr ⟨hevents, hok⟩, hgrouped.append hg, htx⟩

theorem StreamInv.emit_alone (h : StreamInv s) {e : Event} (hok : EventOk s.params e) (he : standsAlone e = true) :
    StreamInv (s.emit [e]) :=
  h.emit (List.forall_mem_singleton.mpr hok) (.inr ⟨e, rfl, he⟩)

theorem StreamInv.txWrite (h : StreamInv s) {f : List Byte} (hf : IsHostFrame f) : StreamInv (s.txWrite f) := by
  obtain ⟨hdec, hevents, hgrouped, htx⟩ := h
  exact ⟨hdec, hevents, hgrouped, htx.append hf⟩

/-- ENCODE adds one record that stands alone, or one frame. -/
theorem StreamInv.encode (h : StreamInv s) (op : Byte) (p : List Byte) :
    StreamInv (encodeEffect op p s) := by
  obtain ⟨hop, he⟩ | ⟨hop, hlen, he⟩ | ⟨hop, hlen, -, he⟩ | ⟨hop, hlen, -, he⟩ := encodeEffect_cases op p s
  · rw [he]; exact h.emit_alone (e := .txError .badOpcode op p.length) hop rfl
  · rw [he]; exact h.emit_alone (e := .txError .lenOverflow op p.length) ⟨hop, hlen⟩ rfl
  · rw [he]; exact h.emit_alone (e := .txDryFrame (buildFrame 0x3C op p)) (isHostFrame_buildFrame hop hlen) rfl
  · rw [he]; exact h.txWrite (isHostFrame_buildFrame hop hlen)

/-- In RX_CRC the frame read so far is the body of a device frame, and its running CRC is the body's (R195). -/
theorem decoderOk_rxCrc {P : Params} {d : Decoder} (h : DecoderOk P d) (hs : d.dstate = .rxCrc) :
    d.dop.toNat ≤ 15 ∧ d.dbuf.length + 1 ≤ P.rxMaxLen ∧ d.dcrc = crc8 (frameBody 0x3E d.dop d.dbuf) := by
  simp only [DecoderOk, hs] at h
  obtain ⟨-, hmax, hop, -, hcount, hcrc⟩ := h
  have hlen : d.dlen = lengthField d.dbuf := by
    rw [lengthField, Nat.add_comm, hcount, BitVec.ofNat_toNat, BitVec.setWidth_eq]
  refine ⟨hop, hcount ▸ hmax, ?_⟩
  rw [hcrc, hlen]
  rfl

/-- A record of a received byte, whose cause is known, says what its kind may say. -/
theorem eventOk_of_rxCause {b : Byte} {e : Event} (h : DecoderOk s.params s.dec) (he : RxCause b s e) :
    EventOk s.params e := by
  cases e with
  | rxDiscard code x =>
    cases code with
    | badMark => obtain ⟨rfl, -, hb⟩ := he; exact hb
    | badDir => obtain ⟨rfl, -, hb⟩ := he; exact hb
    | badLen =>
      obtain ⟨rfl, -, h0⟩ := he
      exact BitVec.eq_of_toNat_eq (by simp; omega)
    | lenTooLong =>
      obtain ⟨-, -, hL⟩ := he
      have hhi := s.dec.dhi.isLt
      have hlo := b.isLt
      exact hL.trans_le (by omega)
    | badOpcode => obtain ⟨rfl, -, hb⟩ := he; exact hb
    | badCrc => obtain ⟨-, -, hv, -⟩ := he; exact hv
    | badReadingLen => trivial
  | rxFrame op p ok =>
    obtain ⟨rfl, rfl, rfl, hs, hok⟩ := he
    obtain ⟨hop, hlen, -⟩ := decoderOk_rxCrc h hs
    refine ⟨hop, hlen, fun hv => decide_eq_true (hok.resolve_left ?_)⟩
    rw [hv]
    exact nofun
  | rxReading m =>
    obtain ⟨-, hs, -, h64, -⟩ := he
    obtain ⟨-, hlen, -⟩ := decoderOk_rxCrc h hs
    rw [h64] at hlen
    exact hlen
  | txDryFrame f => exact he.elim
  | txError code op n => exact he.elim
  | cmdDropped cmd r => exact he.elim

/-- A received byte adds nothing, a discard that stands alone, or the records of one accepted frame. -/
theorem StreamInv.receive (h : StreamInv s) (hr : s.wasReset = true) (b : Byte) : StreamInv (rxEffect b s) := by
  have hdec : DecoderOk s.params s.dec := h.1.2 hr
  have hok (e : Event) (he : e ∈ (decoderStep s.params s.dec b).2) : EventOk s.params e :=
    eventOk_of_rxCause hdec (rxCause_of_mem_decoderStep he)
  have hset : StreamInv (s.setDec (decoderStep s.params s.dec b).1) := ⟨decoderInv_rxEffect h.1 b, h.2⟩
  cases byteOutcome b s with
  | silent d hstep =>
    have hsilent : rxEffect b s = s.setDec (decoderStep s.params s.dec b).1 := by
      rw [rxEffect_eq, hstep, List.append_nil]
      rfl
    rw [hsilent]
    exact hset
  | discards code _ halone hstep =>
    exact hset.emit hok (.inr ⟨_, by rw [hstep, abort_records], halone⟩)
  | accepts hs _ hstep =>
    obtain ⟨-, -, hcrc⟩ := decoderOk_rxCrc hdec hs
    exact hset.emit hok (.inl ⟨_, _, b, by rw [hstep, hcrc]⟩)

theorem StreamInv.receiveAll (h : StreamInv s) (hr : s.wasReset = true) (bs : List Byte) : StreamInv (rxAll bs s) := by
  induction bs generalizing s with
  | nil => exact h
  | cons b bs ih => exact ih (h.receive hr b) hr

/-- The operations that write no stream keep the streams' invariant with the decoder's. -/
theorem streamInv_of_did {i : Instr} (h : StreamInv s) (hdid : Did i s t) : StreamInv t := by
  have hdec : DecoderInv t := decoderInv_of_did h.1 hdid
  cases hdid with
  | encoded op p _ _ ht => subst ht; exact h.encode op p
  | dropped cmd op r _ hdrop _ ht => subst ht; exact h.emit_alone (e := .cmdDropped cmd r) hdrop rfl
  | received bs _ hr ht => subst ht; exact h.receiveAll hr bs
  | reset _ _ ht | setDry _ _ _ ht | crcClear _ _ _ ht | crcFeed _ _ _ ht | crcRead _ _ _ ht
  | readStatus _ _ _ ht => subst ht; exact ⟨hdec, h.2⟩

/-- Settles O51: as for the decoder's invariant, with one lemma for each way a stream grows. -/
theorem stepKeepsStreamInv : Obligations.StepKeepsStreamInv := by
  intro s t h hstep
  obtain rfl | ⟨i, rest, hexec⟩ := step_eq_next hstep
  · exact h
  · exact streamInv_of_did (s := { s with port := rest }) h (did_of_exec hexec)

/-- Settles O52: the partial frame is clear, the streams are empty, and R8's RX_MAX_LEN is in its range. -/
theorem resetMeetsInvariants : Obligations.ResetMeetsInvariants := by
  have hdec : DecoderInv State.reset := ⟨⟨Nat.le_of_ble_eq_true rfl, Nat.le_refl 65535⟩, fun _ => decoderOk_idle _⟩
  exact ⟨hdec, hdec, nofun, ⟨[], rfl, nofun⟩, ⟨[], rfl, nofun⟩⟩

end

end Sys2Proof.Safety
